-- ==== Sys2Proof/Word.lean ====
section
/-! DEFINITION. The word types of the radio framer core: a byte, a byte sequence and the fixed-width fields
made of bytes (00_scope.md R10, R11). -/

namespace Sys2Proof

/-- A byte, 0..255 (R10: byte width 8 bits; R11). -/
abbrev Byte := BitVec 8

/-- A byte sequence, indexed from 0 (R11). -/
abbrev Bytes := List Byte

/-- A 16-bit field, such as a network address (R96). -/
abbrev Half := BitVec 16

/-- A 64-bit field, such as a radio address (R96, R104 `u64`). -/
abbrev Addr64 := BitVec 64

/-- A mark (correlation tag), 0..255 (R15, R60). -/
abbrev Mark := BitVec 8

/-- A ticket: the name of one allocation of a mark, a natural (R30, R60). -/
abbrev Ticket := Nat

/-- The opaque identity of a host caller (R326); the number of callers is unbounded (R10, R34). -/
abbrev CallerId := Nat

end Sys2Proof
end

