-- ==== Sys2Proof/Config.lean ====
section
/-! DEFINITION. The configuration inputs of the block (10_state.md R21, 00_scope.md R10), their defaults, and
the free values: what the spec leaves open and no definition here chooses. -/

namespace Sys2Proof

/-- Which synchronizer runs (R21, R140): the literal step list (R141) or the hunting one (R142). -/
inductive SyncMode where
  | hunt
  | literal
  deriving DecidableEq, Repr

/-- Why a session ended (R22). -/
inductive Reason where
  | localClose
  | readEOF
  | readError
  | writeError
  deriving DecidableEq, Repr, Inhabited

/-- The configuration inputs, sampled at reset and constant for the life of a session (R21). -/
structure Cfg where
  /-- `SYNC_MODE`. -/
  syncMode : SyncMode
  /-- `TIMEOUT_ENABLED`. -/
  timeoutEnabled : Bool
  /-- `TIMEOUT_TICKS`, a positive integer; no rule of the untimed model reads it (R21, R361). -/
  timeoutTicks : Nat
  /-- `DEST64`, the destination of WRITE. -/
  dest64 : Addr64
  /-- `TX_RADIUS`. -/
  txRadius : Byte
  /-- `TX_OPTIONS`. -/
  txOptions : Byte
  /-- `RDBUF_CAP`: `none` is unbounded, `some n` a capacity of `n` bytes. -/
  rdbufCap : Option Nat
  deriving DecidableEq, Repr

/-- The types of R21 that `Cfg` does not carry: `TIMEOUT_TICKS` and a given `RDBUF_CAP` are positive. -/
def Cfg.valid (c : Cfg) : Bool :=
  decide (0 < c.timeoutTicks) && (match c.rdbufCap with | none => true | some n => decide (0 < n))

namespace Config

/-- `BROADCAST64`, the address of every reachable node (R87). -/
def broadcast64 : Addr64 := 0x000000000000FFFF#64

/-- The defaults of R21. `TIMEOUT_TICKS` is OPEN there; its 1 is a DESIGN CHOICE (assumption log 1; unsafe). -/
def defaults : Cfg where
  syncMode := .hunt
  timeoutEnabled := true
  timeoutTicks := 1
  dest64 := broadcast64
  txRadius := 0x00#8
  txOptions := 0x00#8
  rdbufCap := none

/-- FREE VALUE: a length or count in the info of an error that an ABANDON request stored by its code alone
(assumption log 2). -/
opaque openLength : Nat → Nat

/-- FREE VALUE: the first byte of the info of such an error (assumption log 2). -/
opaque openByte : Nat → BitVec 8

/-- FREE VALUE: the second byte of the info of such an error (assumption log 2). -/
opaque openByte2 : Nat → BitVec 8

/-- FREE VALUE: the type byte, if any, in the info of such an error (assumption log 2). -/
opaque openTypeByte : Nat → Option (BitVec 8)

/-- FREE VALUE: the reason in the info of such an error (assumption log 2). -/
opaque openReason : Nat → Reason

end Config

end Sys2Proof
end

