-- ==== Sys2Proof/Syntax.lean ====
section
/-! DEFINITION. The instructions: one constructor for each row of the opcode table, that is the eight API frame
types of 30_encoding.md R82 and the nineteen host requests of R103 and R104. -/

namespace Sys2Proof

/-- A two-character AT mnemonic, first character first (R64); its bytes are not checked to be letters (R200). -/
structure Mnemonic where
  /-- The first character's byte. -/
  c0 : Byte
  /-- The second character's byte. -/
  c1 : Byte
  deriving DecidableEq, Repr

/-- Where a frame of a type that the block produces stands (R82 and R255): `sent` by a SEND phase of the session
sequencer, or `received` from the radio, where it is an unrecognized type. -/
inductive Side where
  | sent
  | received
  deriving DecidableEq, Repr

/-- Where an instruction is presented to the block: on the host request port (R8), as a payload that the receive
engine has validated (R146), or as a payload that a SEND phase hands to the framer (R270, R275, R280). -/
inductive Port where
  | hostRequest
  | received
  | sent
  deriving DecidableEq, Repr

/-- The instructions of the block. The first eight are API frames by their payload fields (R83 to R91), the other
nineteen host requests by their operands (R104). -/
inductive Instr where
  /-- Frame type `0x08`, AT Command (R83). -/
  | atCommandFrame (side : Side) (mark : Mark) (mn : Mnemonic) (param : Bytes)
  /-- Frame type `0x09`, Queued AT Command (R83). -/
  | queuedAtCommandFrame (side : Side) (mark : Mark) (mn : Mnemonic) (param : Bytes)
  /-- Frame type `0x10`, TX Request (R84). -/
  | txRequestFrame (side : Side) (mark : Mark) (dest64 : Addr64) (dest16 : Half) (radius options : Byte)
      (data : Bytes)
  /-- Frame type `0x17`, Remote AT Command Request (R85). -/
  | remoteAtCommandFrame (side : Side) (mark : Mark) (dest64 : Addr64) (dest16 : Half) (options : Byte)
      (mn : Mnemonic) (param : Bytes)
  /-- Frame type `0x88`, AT Command Response (R88). -/
  | atCommandResponseFrame (mark : Mark) (mn : Mnemonic) (status : Byte) (data : Bytes)
  /-- Frame type `0x8B`, TX Status (R89). -/
  | txStatusFrame (mark : Mark) (dest16 : Half) (retry delivery discovery : Byte)
  /-- Frame type `0x90`, RX Indicator (R90). -/
  | rxIndicatorFrame (src64 : Addr64) (src16 : Half) (options : Byte) (data : Bytes)
  /-- Frame type `0x97`, Remote Command Response (R91). -/
  | remoteCommandResponseFrame (mark : Mark) (src64 : Addr64) (src16 : Half) (mn : Mnemonic) (status : Byte)
      (data : Bytes)
  /-- ENCODE_FRAME, `op = 0x01` (R121). -/
  | encodeFrame (payload : Bytes)
  /-- DECODE_FRAME, `op = 0x02` (R122). -/
  | decodeFrame (raw : Bytes)
  /-- SYNC_STEP, `op = 0x03` (R150). -/
  | syncStep (buf : Bytes) (atEnd : Bool)
  /-- ACQUIRE, `op = 0x04` (R170). -/
  | acquire
  /-- RELEASE, `op = 0x05` (R173). -/
  | release (mark : Mark) (resp : Bytes)
  /-- ABANDON, `op = 0x06` (R174); the code is the byte presented, checked by the meaning (R310). -/
  | abandon (mark : Mark) (ticket : Ticket) (code : Byte)
  /-- AWAIT, `op = 0x07` (R175). -/
  | awaitSlot (ticket : Ticket)
  /-- ENCODE_AT, `op = 0x08` (R200). -/
  | encodeAt (mn : Mnemonic) (param : Option Bytes) (mark : Mark) (queued : Bool)
  /-- ENCODE_REMOTE_AT, `op = 0x09` (R202). -/
  | encodeRemoteAt (mn : Mnemonic) (param : Option Bytes) (mark : Mark) (dest : Addr64) (options : Byte)
  /-- ENCODE_TX, `op = 0x0A` (R204). -/
  | encodeTx (mark : Mark) (dest : Addr64) (radius options : Byte) (data : Bytes)
  /-- DECODE_AT_RESP, `op = 0x0B` (R220). -/
  | decodeAtResp (payload : Bytes)
  /-- DECODE_REMOTE_AT_RESP, `op = 0x0C` (R222). -/
  | decodeRemoteAtResp (payload : Bytes)
  /-- DECODE_RX, `op = 0x0D` (R224). -/
  | decodeRx (payload : Bytes)
  /-- DECODE_TX_STATUS, `op = 0x0E` (R226). -/
  | decodeTxStatus (payload : Bytes)
  /-- WRITE, `op = 0x0F` (R270). -/
  | write (data : Bytes)
  /-- AT_COMMAND, `op = 0x10` (R275). -/
  | atCommand (mn : Mnemonic) (param : Option Bytes) (queued : Bool)
  /-- REMOTE_AT_COMMAND, `op = 0x11` (R280). -/
  | remoteAtCommand (dest : Addr64) (options : Byte) (mn : Mnemonic) (param : Option Bytes)
  /-- READ, `op = 0x12` (R285). -/
  | read (nmax : Nat)
  /-- CLOSE, `op = 0x13` (R292). -/
  | close
  deriving DecidableEq, Repr

end Sys2Proof
end

