-- ==== Sys2Proof/Machine/State.lean ====
section
/-! DEFINITION. The state of the block as plain data (10_state.md R20 to R38), the error codes and diagnostic events
it holds (60_exceptions.md R310, R322), the inputs of its steps (R37), and the state after reset. -/

namespace Sys2Proof.Machine

/-- Who raises it: nobody. Every step of the block has a next state: its errors are completions (R310) and its fatal
path is a change of `SESS` (R316), so no reason stands here. Safe. -/
inductive Fault where
  deriving DecidableEq, Repr

/-- Why a step has no meaning. -/
inductive Refusal where
  /-- Raised by an arm of `exec` for an instruction that has no meaning yet; no arm raises it now. Safe: the model
  stops where the block goes on. -/
  | notModelled (mnemonic : String)
  deriving DecidableEq, Repr

/-- The session status `SESS` (R22). -/
inductive SessionStatus where
  | isOpen
  | closing (r : Reason)
  | closed (r : Reason)
  deriving DecidableEq, Repr

/-- The class of an AT command status byte (R93). -/
inductive ATStatus where
  | ok
  | error
  | invalidCommand
  | invalidParam
  deriving DecidableEq, Repr

/-- The class of a TX delivery status byte (R94). -/
inductive TxStatus where
  | success
  | noACK
  | ccaFailure
  | purgedOrOther
  deriving DecidableEq, Repr

/-- The error codes with the info fields that their row of R310 names. -/
inductive Err where
  | invalidDelimiter
  | lengthMismatch (len : Nat)
  | checksumMismatch (got computed : Byte)
  | frameTooLarge (len : Nat)
  | decodeWrongType
  | decodeShort (len : Nat)
  | decodeWrongLength (len : Nat)
  | unknownMark (m : Mark)
  | noMarksAvailable
  | remoteRejected (statusCode : Byte) (status : ATStatus)
  | deliveryFailed (statusCode : Byte) (status : TxStatus)
  | transportClosed (r : Reason)
  | timeout
  | responseTypeMismatch (t : Option Byte)
  | payloadTooLarge (len : Nat)
  | invalidRequest
  | abandoned
  deriving DecidableEq, Repr

/-- The state of a one-shot result slot (R31). -/
inductive SlotState where
  | unused
  | waiting
  | done (resp : Bytes)
  | failed (e : Err)
  | retired
  deriving DecidableEq, Repr

/-- The non-fatal note of the synchronizer (R140). -/
inductive SyncNote where
  | truncated
  | badChecksum
  deriving DecidableEq, Repr

/-- The diagnostic events (R322). -/
inductive Event where
  | noiseDiscarded (k : Nat)
  | falseStart (n : SyncNote)
  | badFrame (e : Err)
  | decodeFailed (type : Byte) (e : Err)
  | unknownType (t : Option Byte)
  | unknownMark (m : Mark)
  | rxOverflow (len : Nat)
  | txDiscarded (frames : Nat)
  | transportEnded (r : Reason)
  deriving DecidableEq, Repr

/-- The decoded AT Command Response (R220). -/
structure ATCmdResponse where
  mark : Mark
  mnemonic : Mnemonic
  statusCode : Byte
  status : ATStatus
  data : Bytes
  deriving DecidableEq, Repr

/-- The decoded Remote Command Response (R222). -/
structure RemoteATCmdResponse where
  mark : Mark
  source : Addr64
  src16 : Half
  mnemonic : Mnemonic
  statusCode : Byte
  status : ATStatus
  data : Bytes
  deriving DecidableEq, Repr

/-- The decoded RX Indicator (R224). -/
structure RxDataFrame where
  source : Addr64
  src16 : Half
  ack : Bool
  broadcast : Bool
  options : Byte
  payload : Bytes
  deriving DecidableEq, Repr

/-- The decoded TX Status (R226). -/
structure TxStatusFrame where
  mark : Mark
  dest16 : Half
  retryCount : Byte
  statusCode : Byte
  status : TxStatus
  routed : Bool
  deriving DecidableEq, Repr

/-- The result triple of SYNC_STEP (R140). -/
structure SyncResult where
  consumed : Nat
  frame : Option Bytes
  note : Option SyncNote
  deriving DecidableEq, Repr

/-- The result of a host request (the result column of R104). -/
inductive Result where
  | unit
  | bytes (b : Bytes)
  | sync (r : SyncResult)
  | acquired (m : Mark) (t : Ticket)
  | atResp (r : ATCmdResponse)
  | remoteAtResp (r : RemoteATCmdResponse)
  | rx (r : RxDataFrame)
  | txStatus (r : TxStatusFrame)
  | count (n : Nat)
  deriving DecidableEq, Repr

/-- The completion record of a host request (R311). -/
inductive Completion where
  | ok (r : Result)
  | err (e : Err)
  deriving DecidableEq, Repr

/-- A phase of a session call after its START (R270). -/
inductive Phase where
  | send
  | wait
  deriving DecidableEq, Repr

/-- The operands a session call keeps as its locals (R270, R275, R280). -/
inductive Call where
  | write (data : Bytes)
  | atCommand (mn : Mnemonic) (param : Option Bytes) (queued : Bool)
  | remoteAtCommand (dest : Addr64) (options : Byte) (mn : Mnemonic) (param : Option Bytes)
  deriving DecidableEq, Repr

/-- The state of a host caller (R34): idle, in a phase of a session call with its mark and ticket, held in AWAIT
(R175), or held in the TAKE phase of READ (R285). -/
inductive CallState where
  | idle
  | session (ph : Phase) (op : Call) (m : Mark) (t : Ticket)
  | awaiting (t : Ticket)
  | reading (nmax : Nat)
  deriving DecidableEq, Repr

/-- The transport's answer to one write (R290): accepted, or failed with `j` bytes of the frame on the wire. -/
inductive WriteOutcome where
  | ok
  | fail (j : Nat)
  deriving DecidableEq, Repr

/-- Which of the two ends the transport reports on its read side (R293). -/
inductive RxEndReason where
  | readEOF
  | readError
  deriving DecidableEq, Repr

/-- One step that is taken next, with its free inputs (R7, R37): the model's draw of which agent moves and of what
the ports deliver. -/
inductive Input where
  /-- The reset input is asserted with these configuration inputs (R340). -/
  | reset (cfg : Cfg)
  /-- Caller `c` presents a request record on the host request port (R8). -/
  | request (c : CallerId) (bytes : Bytes)
  /-- Caller `c` takes the next phase of the operation it is in (R34). -/
  | phase (c : CallerId)
  /-- INGEST: the transport delivers a chunk (R145). -/
  | chunk (ch : Bytes)
  /-- RX_END: the transport's read side ends (R293). -/
  | rxEnd (r : RxEndReason)
  /-- SCAN, a step of the receive engine (R146). -/
  | scan
  /-- FINALIZE, the last step of the receive engine (R148). -/
  | finalize
  /-- TX_SEND, a step of the transmit engine, with the transport's answer (R290). -/
  | txSend (o : WriteOutcome)
  /-- TIMEOUT of the call of caller `c` (R296). -/
  | timeout (c : CallerId)
  deriving DecidableEq, Repr

/-- The state of the block. -/
structure State where
  /-- `SESS` (R22). -/
  sess : SessionStatus
  /-- `SYNCBUF` (R26). -/
  syncbuf : Bytes
  /-- `TXQ` (R27), head first. -/
  txq : List (Ticket × Bytes)
  /-- `WIRE_OUT` (R28). -/
  wireOut : Bytes
  /-- `POOL` (R29): the holder of each mark 0..255. -/
  pool : Vector (Option Ticket) 256
  /-- `NEXT_TICKET` (R30). -/
  nextTicket : Ticket
  /-- `SLOT` (R31) as a sparse table by ticket; an unlisted ticket is `unused`. -/
  slots : List (Ticket × SlotState)
  /-- `RDBUF` (R32). -/
  rdbuf : Bytes
  /-- `DIAG` (R33), oldest first. -/
  diag : List Event
  /-- `CALLS` (R34) as a sparse table by caller; an unlisted caller is `idle`. -/
  calls : List (CallerId × CallState)
  /-- The configuration inputs as sampled at reset (R21). -/
  cfg : Cfg
  /-- The transport close control (R8, R292): asserted or not. -/
  closeCtl : Bool
  /-- The completions presented on the host request port (R8, R311), oldest first. -/
  completions : List (CallerId × Completion)
  /-- The MODEL's own: the caller whose request or phase is being taken. -/
  reqCaller : CallerId
  /-- The MODEL's own: the steps still to be taken with their free inputs, next first (R37). -/
  inputs : List Input
  /-- The MODEL's own: how many free values have been drawn (assumption log 2). -/
  freeCount : Nat
  deriving DecidableEq, Repr

/-- The state the reset step leaves (R38, R340), for sampled configuration inputs, the steps still to come and the
count of free values drawn, none of which the reset step of R340 sets. -/
def State.fresh (cfg : Cfg) (inputs : List Input) (freeCount : Nat) : State where
  sess := .isOpen
  syncbuf := []
  txq := []
  wireOut := []
  pool := Vector.replicate 256 none
  nextTicket := 0
  slots := []
  rdbuf := []
  diag := []
  calls := []
  cfg := cfg
  closeCtl := false
  completions := []
  reqCaller := 0
  inputs := inputs
  freeCount := freeCount

/-- The machine right after reset with the default configuration inputs, nothing delivered yet (R38, R21). -/
def State.reset : State := State.fresh Config.defaults [] 0

end Sys2Proof.Machine
end

