-- ==== Sys2Proof/Machine/Flags.lean ====
section
/-! DEFINITION. The status codes and flags of the block: the classes of the status bytes it receives (30_encoding.md
R93 to R95), the flag bits of an RX Indicator (R90), the numbers of the error codes (60_exceptions.md R310), and what
is read of its one status flag `SESS` (R22, R23: there are no condition codes). -/

namespace Sys2Proof.Machine

/-- `at_class` (R93, R220). -/
def atClass (b : Byte) : ATStatus :=
  if b = 0x00#8 then .ok
  else if b = 0x01#8 then .error
  else if b = 0x02#8 then .invalidCommand
  else if b = 0x03#8 then .invalidParam
  else .error

/-- `tx_class` (R94, R226). -/
def txClass (b : Byte) : TxStatus :=
  if b = 0x00#8 then .success
  else if b = 0x01#8 then .noACK
  else if b = 0x02#8 then .ccaFailure
  else .purgedOrOther

/-- The routed flag of a TX Status: the discovery status byte is not `0x00` (R95). -/
def routedFlag (discovery : Byte) : Bool := decide (discovery ≠ 0x00#8)

/-- The ack flag: bit 0 of the receive options (R90). -/
def ackFlag (options : Byte) : Bool := options.getLsbD 0

/-- The broadcast flag: bit 1 of the receive options (R90). -/
def broadcastFlag (options : Byte) : Bool := options.getLsbD 1

/-- The reason of a session that has ended, `none` while it is open (R22). -/
def SessionStatus.ended (s : SessionStatus) : Option Reason :=
  match s with
  | .isOpen => none
  | .closing r => some r
  | .closed r => some r

/-- The synchronizer's `atEnd` input, `SESS != OPEN` (R22). -/
def SessionStatus.atEnd (s : SessionStatus) : Bool := s.ended.isSome

/-- The number of an error code (R310). -/
def Err.code (e : Err) : Byte :=
  match e with
  | .invalidDelimiter => 0x01#8
  | .lengthMismatch _ => 0x02#8
  | .checksumMismatch _ _ => 0x03#8
  | .frameTooLarge _ => 0x04#8
  | .decodeWrongType => 0x05#8
  | .decodeShort _ => 0x06#8
  | .decodeWrongLength _ => 0x07#8
  | .unknownMark _ => 0x08#8
  | .noMarksAvailable => 0x09#8
  | .remoteRejected _ _ => 0x0A#8
  | .deliveryFailed _ _ => 0x0B#8
  | .transportClosed _ => 0x0C#8
  | .timeout => 0x0D#8
  | .responseTypeMismatch _ => 0x0E#8
  | .payloadTooLarge _ => 0x0F#8
  | .invalidRequest => 0x10#8
  | .abandoned => 0x11#8

/-- The code of a completion: `0x00` for a result, the error's own code otherwise (R310, R311). -/
def Completion.code (x : Completion) : Byte :=
  match x with
  | .ok _ => 0x00#8
  | .err e => e.code

/-- The error that an ABANDON request names by its code byte alone (R174, R310); `none` for a byte outside
`0x01`..`0x11`. The request gives no info, and the spec does not say what info such an error carries: each field of it
is a free value (assumption log 2). -/
def errOfCode (k : Nat) (code : Byte) : Option Err :=
  if code = 0x01#8 then some .invalidDelimiter
  else if code = 0x02#8 then some (.lengthMismatch (Config.openLength k))
  else if code = 0x03#8 then some (.checksumMismatch (Config.openByte k) (Config.openByte2 k))
  else if code = 0x04#8 then some (.frameTooLarge (Config.openLength k))
  else if code = 0x05#8 then some .decodeWrongType
  else if code = 0x06#8 then some (.decodeShort (Config.openLength k))
  else if code = 0x07#8 then some (.decodeWrongLength (Config.openLength k))
  else if code = 0x08#8 then some (.unknownMark (Config.openByte k))
  else if code = 0x09#8 then some .noMarksAvailable
  else if code = 0x0A#8 then some (.remoteRejected (Config.openByte k) (atClass (Config.openByte k)))
  else if code = 0x0B#8 then some (.deliveryFailed (Config.openByte k) (txClass (Config.openByte k)))
  else if code = 0x0C#8 then some (.transportClosed (Config.openReason k))
  else if code = 0x0D#8 then some .timeout
  else if code = 0x0E#8 then some (.responseTypeMismatch (Config.openTypeByte k))
  else if code = 0x0F#8 then some (.payloadTooLarge (Config.openLength k))
  else if code = 0x10#8 then some .invalidRequest
  else if code = 0x11#8 then some .abandoned
  else none

end Sys2Proof.Machine
end

