-- ==== Sys2Proof/Machine/Operands.lean ====
section
/-! DEFINITION. Field assembly (00_scope.md R12, 20_memory.md R62 to R65, 30_encoding.md R96) and the operand forms of
a host request record (R104) as bytes on the request port. -/

namespace Sys2Proof

/-- `s[i]`; 0 outside the sequence, where no rule reads (R11). -/
def byteAt (s : Bytes) (i : Nat) : Byte := s.getD i 0#8

/-- `s[i..j)` (R11). -/
def slice (s : Bytes) (i j : Nat) : Bytes := (s.drop i).take (j - i)

/-- `be16(h, l) = h*256 + l` (R12, R62). -/
def be16 (h l : Byte) : Nat := h.toNat * 256 + l.toNat

/-- `be16bytes`: the high byte, then the low byte (R12). -/
def be16bytes (v : Half) : Bytes := [v.extractLsb' 8 8, v.extractLsb' 0 8]

/-- The 16-bit field at offset `k` (R96). -/
def halfAt (s : Bytes) (k : Nat) : Half := BitVec.ofNat 16 (be16 (byteAt s k) (byteAt s (k + 1)))

/-- The sum of R12's `be64` over the bytes of `s`: the first byte weighs most. -/
def beNat (s : Bytes) : Nat := s.foldl (fun acc b => acc * 256 + b.toNat) 0

/-- The 64-bit field at offset `k` (R12 `be64`, R96). -/
def addrAt (s : Bytes) (k : Nat) : Addr64 :=
  BitVec.ofNat 64 (beNat [byteAt s k, byteAt s (k + 1), byteAt s (k + 2), byteAt s (k + 3), byteAt s (k + 4),
    byteAt s (k + 5), byteAt s (k + 6), byteAt s (k + 7)])

/-- `be64bytes`: the eight bytes of an address, most significant first (R12, R63). -/
def be64bytes (a : Addr64) : Bytes :=
  [a.extractLsb' 56 8, a.extractLsb' 48 8, a.extractLsb' 40 8, a.extractLsb' 32 8, a.extractLsb' 24 8,
    a.extractLsb' 16 8, a.extractLsb' 8 8, a.extractLsb' 0 8]

/-- A mnemonic as two bytes, the first character first (R64). -/
def Mnemonic.bytes (mn : Mnemonic) : Bytes := [mn.c0, mn.c1]

/-- The mnemonic at offset `k` (R96). -/
def mnemonicAt (s : Bytes) (k : Nat) : Mnemonic := ⟨byteAt s k, byteAt s (k + 1)⟩

/-- The parameter bytes on the wire: absent and present-empty alike are none (R200, R201). -/
def paramBytes (param : Option Bytes) : Bytes := param.getD []

/-! The record on the request port. The spec gives a request its 5-bit `op` and its operands (R103, R104) and leaves
their carriage to the integrator (R61); the byte form below is the model's own: DESIGN CHOICE, assumption log 3. -/

/-- A natural of any size, seven bits a byte from the low end, with bit 7 set on all but the last byte. -/
def natBytesFuel : Nat → Nat → Bytes
  | 0, n => [BitVec.ofNat 8 (n % 128)]
  | f + 1, n => if n < 128 then [BitVec.ofNat 8 n] else BitVec.ofNat 8 (128 + n % 128) :: natBytesFuel f (n / 128)

/-- A natural operand (`Nat`, `Ticket`, R104). -/
def natBytes (n : Nat) : Bytes := natBytesFuel n n

/-- A `Bytes` operand: its length, then its bytes. -/
def sizedBytes (b : Bytes) : Bytes := natBytes b.length ++ b

/-- A `bool` operand. -/
def boolByte (b : Bool) : Byte := if b then 1#8 else 0#8

/-- An `Option Bytes` operand: 0 for `none`, else 1 and the bytes. -/
def optBytes (p : Option Bytes) : Bytes :=
  match p with
  | none => [0#8]
  | some b => 1#8 :: sizedBytes b

/-- Reads a byte operand. -/
def takeByte (s : Bytes) : Option (Byte × Bytes) :=
  match s with
  | [] => none
  | b :: r => some (b, r)

/-- Reads a natural operand. -/
def takeNat (s : Bytes) : Option (Nat × Bytes) :=
  match s with
  | [] => none
  | b :: r =>
    if b.toNat < 128 then some (b.toNat, r)
    else match takeNat r with
      | none => none
      | some (n, r') => some (b.toNat - 128 + 128 * n, r')

/-- Reads a `Bytes` operand. -/
def takeSized (s : Bytes) : Option (Bytes × Bytes) :=
  match takeNat s with
  | none => none
  | some (n, r) => if n ≤ r.length then some (r.take n, r.drop n) else none

/-- Reads a `bool` operand; a byte other than 0 and 1 is no `bool`. -/
def takeBool (s : Bytes) : Option (Bool × Bytes) :=
  match s with
  | [] => none
  | b :: r => if b = 0#8 then some (false, r) else if b = 1#8 then some (true, r) else none

/-- Reads an `Option Bytes` operand. -/
def takeOptBytes (s : Bytes) : Option (Option Bytes × Bytes) :=
  match takeBool s with
  | none => none
  | some (false, r) => some (none, r)
  | some (true, r) =>
    match takeSized r with
    | none => none
    | some (b, r') => some (some b, r')

/-- Reads a mnemonic operand, exactly two bytes (R104). -/
def takeMnemonic (s : Bytes) : Option (Mnemonic × Bytes) :=
  match s with
  | a :: b :: r => some (⟨a, b⟩, r)
  | _ => none

/-- Reads a `u64` operand. -/
def takeAddr (s : Bytes) : Option (Addr64 × Bytes) :=
  if 8 ≤ s.length then some (addrAt s 0, s.drop 8) else none

end Sys2Proof
end

