-- ==== Sys2Proof/Machine/Layout.lean ====
section
/-! DEFINITION. The payload layouts of 30_encoding.md R83 to R91: what the command encoders build
(43_command_encoder.md) and what the decoders read (44_decoders.md). -/

namespace Sys2Proof.Machine

/-- AT Command and Queued AT Command payload (R83). -/
def atPayload (type : Byte) (mark : Mark) (mn : Mnemonic) (param : Bytes) : Bytes :=
  [type, mark] ++ mn.bytes ++ param

/-- The type byte of an AT command: `0x09` queue, `0x08` apply immediately (R83, R200). -/
def atType (queued : Bool) : Byte := if queued then 0x09#8 else 0x08#8

/-- The 16-bit destination field the block writes (R86). -/
def dest16Unknown : Half := 0xFFFE#16

/-- TX Request payload (R84). -/
def txPayload (mark : Mark) (dest64 : Addr64) (dest16 : Half) (radius options : Byte) (data : Bytes) : Bytes :=
  [0x10#8, mark] ++ be64bytes dest64 ++ be16bytes dest16 ++ [radius, options] ++ data

/-- Remote AT Command Request payload (R85). -/
def remoteAtPayload (mark : Mark) (dest64 : Addr64) (dest16 : Half) (options : Byte) (mn : Mnemonic)
    (param : Bytes) : Bytes :=
  [0x17#8, mark] ++ be64bytes dest64 ++ be16bytes dest16 ++ [options] ++ mn.bytes ++ param

/-- AT Command Response payload (R88). -/
def atRespPayload (mark : Mark) (mn : Mnemonic) (status : Byte) (data : Bytes) : Bytes :=
  [0x88#8, mark] ++ mn.bytes ++ [status] ++ data

/-- TX Status payload (R89). -/
def txStatusPayload (mark : Mark) (dest16 : Half) (retry delivery discovery : Byte) : Bytes :=
  [0x8B#8, mark] ++ be16bytes dest16 ++ [retry, delivery, discovery]

/-- RX Indicator payload (R90). -/
def rxPayload (src64 : Addr64) (src16 : Half) (options : Byte) (data : Bytes) : Bytes :=
  [0x90#8] ++ be64bytes src64 ++ be16bytes src16 ++ [options] ++ data

/-- Remote Command Response payload (R91). -/
def remoteRespPayload (mark : Mark) (src64 : Addr64) (src16 : Half) (mn : Mnemonic) (status : Byte)
    (data : Bytes) : Bytes :=
  [0x97#8, mark] ++ be64bytes src64 ++ be16bytes src16 ++ mn.bytes ++ [status] ++ data

/-- ENCODE_AT (R200). -/
def encodeAtOp (mn : Mnemonic) (param : Option Bytes) (mark : Mark) (queued : Bool) : Bytes :=
  atPayload (atType queued) mark mn (paramBytes param)

/-- ENCODE_REMOTE_AT (R202). -/
def encodeRemoteAtOp (mn : Mnemonic) (param : Option Bytes) (mark : Mark) (dest : Addr64) (options : Byte) : Bytes :=
  remoteAtPayload mark dest dest16Unknown options mn (paramBytes param)

/-- ENCODE_TX (R204). -/
def encodeTxOp (mark : Mark) (dest : Addr64) (radius options : Byte) (data : Bytes) : Bytes :=
  txPayload mark dest dest16Unknown radius options data

/-- The payload begins with this frame type; the empty payload begins with none (R222, R224, R226). -/
def hasType (p : Bytes) (type : Byte) : Bool := decide (p ≠ []) && decide (byteAt p 0 = type)

/-- DECODE_AT_RESP (R220); the type byte is not checked (R221). -/
def decodeAtRespOp (p : Bytes) : Except Err ATCmdResponse :=
  if p.length < 5 then .error (.decodeShort p.length)
  else .ok { mark := byteAt p 1, mnemonic := mnemonicAt p 2, statusCode := byteAt p 4,
             status := atClass (byteAt p 4), data := p.drop 5 }

/-- DECODE_REMOTE_AT_RESP (R222). -/
def decodeRemoteAtRespOp (p : Bytes) : Except Err RemoteATCmdResponse :=
  if hasType p 0x97#8 = false then .error .decodeWrongType
  else if p.length < 15 then .error (.decodeShort p.length)
  else .ok { mark := byteAt p 1, source := addrAt p 2, src16 := halfAt p 10, mnemonic := mnemonicAt p 12,
             statusCode := byteAt p 14, status := atClass (byteAt p 14), data := p.drop 15 }

/-- DECODE_RX (R224). -/
def decodeRxOp (p : Bytes) : Except Err RxDataFrame :=
  if hasType p 0x90#8 = false then .error .decodeWrongType
  else if p.length < 12 then .error (.decodeShort p.length)
  else .ok { source := addrAt p 1, src16 := halfAt p 9, ack := ackFlag (byteAt p 11),
             broadcast := broadcastFlag (byteAt p 11), options := byteAt p 11, payload := p.drop 12 }

/-- DECODE_TX_STATUS (R226). -/
def decodeTxStatusOp (p : Bytes) : Except Err TxStatusFrame :=
  if hasType p 0x8B#8 = false then .error .decodeWrongType
  else if p.length ≠ 7 then .error (.decodeWrongLength p.length)
  else .ok { mark := byteAt p 1, dest16 := halfAt p 2, retryCount := byteAt p 4, statusCode := byteAt p 5,
             status := txClass (byteAt p 5), routed := routedFlag (byteAt p 6) }

end Sys2Proof.Machine
end

