-- ==== Sys2Proof/Machine/Table.lean ====
section
/-! DEFINITION. Sparse tables by a natural key, the form in which State holds `SLOT` and `CALLS`: keys strictly
rising and no entry equal to what an unlisted key reads as, so that equal tables are equal data. -/

namespace Sys2Proof.Machine

/-- What the table holds at `k`; an unlisted key reads as `d`. -/
def tableGet {α : Type} (d : α) (l : List (Nat × α)) (k : Nat) : α :=
  match l.find? (fun e => e.1 == k) with
  | some e => e.2
  | none => d

/-- Puts an entry before the first greater key. -/
def tableInsert {α : Type} (k : Nat) (v : α) (l : List (Nat × α)) : List (Nat × α) :=
  match l with
  | [] => [(k, v)]
  | e :: r => if k < e.1 then (k, v) :: e :: r else e :: tableInsert k v r

/-- The table with `v` at `k`; writing what an unlisted key reads as removes the entry. -/
def tableSet {α : Type} [DecidableEq α] (d : α) (l : List (Nat × α)) (k : Nat) (v : α) : List (Nat × α) :=
  if v = d then l.filter (fun e => e.1 != k) else tableInsert k v (l.filter (fun e => e.1 != k))

/-- The canonical form: keys strictly rising, no entry equal to `d`. -/
def tableWf {α : Type} [DecidableEq α] (d : α) (l : List (Nat × α)) : Bool :=
  decide (l.Pairwise (fun a b => a.1 < b.1)) && l.all (fun e => decide (e.2 ≠ d))

end Sys2Proof.Machine
end

