-- ==== Sys2Proof/Machine/Ops.lean ====
section
/-! DEFINITION. The shared operations of the block: the checksum and the framer (40_framer.md), the synchronizer
(41_synchronizer.md), the tag pool (42_tag_pool.md), the router (45_router.md), and the entry into the fatal path with
the way back from it (60_exceptions.md R316, R317; 70_reset_and_hazards.md R340). -/

namespace Sys2Proof.Machine

/-! ## Access to the state -/

/-- `POOL[m]` (R29). -/
def State.poolAt (s : State) (m : Mark) : Option Ticket := s.pool[m.toNat]'m.isLt

/-- `POOL[m] <- o`. -/
def State.setPool (s : State) (m : Mark) (o : Option Ticket) : State :=
  { s with pool := s.pool.set m.toNat o m.isLt }

/-- `SLOT[t]` (R31); a ticket with no entry is `Unused`. -/
def State.slotAt (s : State) (t : Ticket) : SlotState := tableGet .unused s.slots t

/-- `SLOT[t] <- v`. -/
def State.setSlot (s : State) (t : Ticket) (v : SlotState) : State :=
  { s with slots := tableSet .unused s.slots t v }

/-- `CALLS[c]` (R34); a caller with no entry is `Idle`. -/
def State.callAt (s : State) (c : CallerId) : CallState := tableGet .idle s.calls c

/-- `CALLS[c] <- v`. -/
def State.setCall (s : State) (c : CallerId) (v : CallState) : State :=
  { s with calls := tableSet .idle s.calls c v }

/-- `emit E` (R13): appends to `DIAG` (R33). -/
def State.emit (s : State) (e : Event) : State := { s with diag := s.diag ++ [e] }

/-- Presents the completion of caller `c` on the host request port (R8, R311). -/
def State.complete (s : State) (c : CallerId) (x : Completion) : State :=
  { s with completions := s.completions ++ [(c, x)] }

/-- `complete v` of the request being taken (R13). -/
def State.finish (s : State) (r : Result) : State := s.complete s.reqCaller (.ok r)

/-- `raise E` of the request being taken (R13). -/
def State.fail (s : State) (e : Err) : State := s.complete s.reqCaller (.err e)

/-- Completes the request being taken with a result or an error. -/
def State.finishWith {α : Type} (s : State) (mk : α → Result) (x : Except Err α) : State :=
  match x with
  | .ok a => s.finish (mk a)
  | .error e => s.fail e

/-! ## Checksum and framer -/

/-- `sum8` (R12): the sum of the bytes modulo 256. -/
def sum8 (s : Bytes) : Byte := s.foldr (fun b acc => b + acc) 0#8

/-- `cks` (R12, R120). -/
def cks (s : Bytes) : Byte := 0xFF#8 - sum8 s

/-- ENCODE_FRAME (R121). -/
def encodeFrameOp (payload : Bytes) : Except Err Bytes :=
  if 65535 < payload.length then .error (.frameTooLarge payload.length)
  else .ok ([0x7E#8] ++ be16bytes (BitVec.ofNat 16 payload.length) ++ payload ++ [cks payload])

/-- DECODE_FRAME (R122), its checks in the order of R123. -/
def decodeFrameOp (raw : Bytes) : Except Err Bytes :=
  if raw = [] ∨ byteAt raw 0 ≠ 0x7E#8 then .error .invalidDelimiter
  else if raw.length < 4 then .error (.lengthMismatch raw.length)
  else
    let len := be16 (byteAt raw 1) (byteAt raw 2)
    if raw.length ≠ len + 4 then .error (.lengthMismatch raw.length)
    else
      let p := slice raw 3 (3 + len)
      if byteAt raw (3 + len) ≠ cks p then .error (.checksumMismatch (byteAt raw (3 + len)) (cks p))
      else .ok p

/-! ## Synchronizer -/

/-- `first(s, b)` (R12). -/
def firstIndex (s : Bytes) (b : Byte) : Option Nat :=
  match s with
  | [] => none
  | x :: r => if x = b then some 0 else
    match firstIndex r b with
    | none => none
    | some i => some (i + 1)

/-- SYNC_STEP with `SYNC_MODE = LITERAL` (R141). -/
def syncStepLiteral (buf : Bytes) : SyncResult :=
  match firstIndex buf 0x7E#8 with
  | none => ⟨buf.length, none, none⟩
  | some i =>
    if buf.length - i - 1 < 3 then ⟨i, none, none⟩
    else
      let total := be16 (byteAt buf (i + 1)) (byteAt buf (i + 2)) + 4
      if buf.length - i < total then ⟨i, none, none⟩
      else ⟨i + total, some (slice buf i (i + total)), none⟩

/-- An incomplete candidate at `i` in `HUNT` mode: wait, or at the end of the stream give up its delimiter (R142). -/
def huntIncomplete (i : Nat) (atEnd : Bool) : SyncResult :=
  if atEnd then ⟨i + 1, none, some .truncated⟩ else ⟨i, none, none⟩

/-- SYNC_STEP with `SYNC_MODE = HUNT` (R142). -/
def syncStepHunt (buf : Bytes) (atEnd : Bool) : SyncResult :=
  match firstIndex buf 0x7E#8 with
  | none => ⟨buf.length, none, none⟩
  | some i =>
    if buf.length - i - 1 < 3 then huntIncomplete i atEnd
    else
      let len := be16 (byteAt buf (i + 1)) (byteAt buf (i + 2))
      if buf.length - i < len + 4 then huntIncomplete i atEnd
      else
        let f := slice buf i (i + (len + 4))
        if byteAt f (3 + len) = cks (slice f 3 (3 + len)) then ⟨i + (len + 4), some f, none⟩
        else ⟨i + 1, none, some .badChecksum⟩

/-- SYNC_STEP (R140). -/
def syncStepOp (mode : SyncMode) (buf : Bytes) (atEnd : Bool) : SyncResult :=
  match mode with
  | .literal => syncStepLiteral buf
  | .hunt => syncStepHunt buf atEnd

/-! ## Tag pool -/

/-- The least free mark among the `k` marks from `m` on. -/
def State.freeMarkFrom (s : State) : Nat → Nat → Option Mark
  | 0, _ => none
  | k + 1, m =>
    match s.poolAt (BitVec.ofNat 8 m) with
    | none => some (BitVec.ofNat 8 m)
    | some _ => s.freeMarkFrom k (m + 1)

/-- The least `m` in 1..255 with `POOL[m] = none` (R170). -/
def State.freeMark (s : State) : Option Mark := s.freeMarkFrom 255 1

/-- The state after a successful ACQUIRE of mark `m` (R170). -/
def State.reserve (s : State) (m : Mark) : State :=
  { (s.setPool m (some s.nextTicket)).setSlot s.nextTicket .waiting with nextTicket := s.nextTicket + 1 }

/-- ACQUIRE (R170): the mark, the ticket and the state after, or the error, which changes nothing. -/
def acquireOp (s : State) : Except Err (Mark × Ticket × State) :=
  match s.sess.ended with
  | some r => .error (.transportClosed r)
  | none =>
    match s.freeMark with
    | none => .error .noMarksAvailable
    | some m => .ok (m, s.nextTicket, s.reserve m)

/-- RELEASE (R173): the state after, with the event when the mark is not reserved. -/
def releaseOp (m : Mark) (resp : Bytes) (s : State) : State :=
  match s.poolAt m with
  | none => s.emit (.unknownMark m)
  | some t => (s.setPool m none).setSlot t (.done resp)

/-- The error of RELEASE (R173), `none` when the mark is reserved. -/
def releaseError (m : Mark) (s : State) : Option Err :=
  match s.poolAt m with
  | none => some (.unknownMark m)
  | some _ => none

/-- ABANDON (R174): nothing changes unless ticket `t` holds mark `m`. -/
def abandonOp (m : Mark) (t : Ticket) (e : Err) (s : State) : State :=
  if s.poolAt m = some t then (s.setPool m none).setSlot t (.failed e) else s

/-- AWAIT (R175): `none` while it is held, else the state after with the response or the error. A slot that a first
consumer has retired raises `InvalidRequest` also after a hold (assumption log 6). -/
def awaitOp (t : Ticket) (s : State) : Option (State × Except Err Bytes) :=
  match s.slotAt t with
  | .unused => some (s, .error .invalidRequest)
  | .retired => some (s, .error .invalidRequest)
  | .waiting => none
  | .done b => some (s.setSlot t .retired, .ok b)
  | .failed e => some (s.setSlot t .retired, .error e)

/-- FORCE_RELEASE_ALL over the `k` marks from `m` on. -/
def forceReleaseFrom (e : Err) : Nat → Nat → State → State
  | 0, _, s => s
  | k + 1, m, s =>
    match s.poolAt (BitVec.ofNat 8 m) with
    | none => forceReleaseFrom e k (m + 1) s
    | some t =>
      forceReleaseFrom e k (m + 1) ((s.setPool (BitVec.ofNat 8 m) none).setSlot t (.failed e))

/-- FORCE_RELEASE_ALL (R176): every reserved mark of 1..255 is freed and its slot failed. -/
def forceReleaseAll (e : Err) (s : State) : State := forceReleaseFrom e 255 1 s

/-! ## Router -/

/-- The RX Indicator arm (R251). -/
def routeRx (p : Bytes) (s : State) : State :=
  match decodeRxOp p with
  | .error e => s.emit (.decodeFailed 0x90#8 e)
  | .ok r =>
    match s.cfg.rdbufCap with
    | none => { s with rdbuf := s.rdbuf ++ r.payload }
    | some cap =>
      if cap < s.rdbuf.length + r.payload.length then s.emit (.rxOverflow r.payload.length)
      else { s with rdbuf := s.rdbuf ++ r.payload }

/-- The response arms (R252 to R254): a payload that its decoder refuses is dropped, any other is released to the
holder of the mark at offset 1, whose error is absorbed (R256). -/
def routeResp {α : Type} (decoded : Except Err α) (p : Bytes) (s : State) : State :=
  match decoded with
  | .error e => s.emit (.decodeFailed (byteAt p 0) e)
  | .ok _ => releaseOp (byteAt p 1) p s

/-- The unrecognized arm (R255). -/
def routeUnknown (t : Option Byte) (s : State) : State := s.emit (.unknownType t)

/-- DISPATCH (R250): one arm for each payload. -/
def dispatchPayload (p : Bytes) (s : State) : State :=
  match p with
  | [] => routeUnknown none s
  | type :: _ =>
    if type = 0x90#8 then routeRx p s
    else if type = 0x88#8 then routeResp (decodeAtRespOp p) p s
    else if type = 0x8B#8 then routeResp (decodeTxStatusOp p) p s
    else if type = 0x97#8 then routeResp (decodeRemoteAtRespOp p) p s
    else routeUnknown (some type) s

/-! ## The fatal path and the way back -/

/-- Entry into the transport-fatal path, the block's only trap (R316): `SESS` becomes `CLOSING(r)`, the transport
close control is asserted and `TransportEnded(r)` is emitted. It saves nothing and has no vector. -/
def enterFatal (r : Reason) (s : State) : State :=
  { s.emit (.transportEnded r) with sess := .closing r, closeCtl := true }

/-- The reset step, the only way back to `OPEN` (R317, R340): every field at its value of R38 and the configuration
inputs sampled. What is still to come on the ports, and the count of free values, are not the block's to reset. -/
def resetStep (cfg : Cfg) (s : State) : State := State.fresh cfg s.inputs s.freeCount

end Sys2Proof.Machine
end

