-- ==== Sys2Proof/Machine/Decoders.lean ====
section
/-! DEFINITION. The meanings of DECODE_AT_RESP, DECODE_REMOTE_AT_RESP, DECODE_RX and DECODE_TX_STATUS
(44_decoders.md). -/

namespace Sys2Proof.Machine

/-- DECODE_AT_RESP (R220). -/
def execDecodeAtResp (payload : Bytes) (s : State) : Host.Outcome State Fault Refusal :=
  .next (s.finishWith .atResp (decodeAtRespOp payload))

/-- DECODE_REMOTE_AT_RESP (R222). -/
def execDecodeRemoteAtResp (payload : Bytes) (s : State) : Host.Outcome State Fault Refusal :=
  .next (s.finishWith .remoteAtResp (decodeRemoteAtRespOp payload))

/-- DECODE_RX (R224). -/
def execDecodeRx (payload : Bytes) (s : State) : Host.Outcome State Fault Refusal :=
  .next (s.finishWith .rx (decodeRxOp payload))

/-- DECODE_TX_STATUS (R226). -/
def execDecodeTxStatus (payload : Bytes) (s : State) : Host.Outcome State Fault Refusal :=
  .next (s.finishWith .txStatus (decodeTxStatusOp payload))

end Sys2Proof.Machine
end

