-- ==== Sys2Proof/Machine/Encoders.lean ====
section
/-! DEFINITION. The meanings of ENCODE_AT, ENCODE_REMOTE_AT and ENCODE_TX (43_command_encoder.md). -/

namespace Sys2Proof.Machine

/-- ENCODE_AT (R200). -/
def execEncodeAt (mn : Mnemonic) (param : Option Bytes) (mark : Mark) (queued : Bool) (s : State) :
    Host.Outcome State Fault Refusal :=
  .next (s.finish (.bytes (encodeAtOp mn param mark queued)))

/-- ENCODE_REMOTE_AT (R202). -/
def execEncodeRemoteAt (mn : Mnemonic) (param : Option Bytes) (mark : Mark) (dest : Addr64) (options : Byte)
    (s : State) : Host.Outcome State Fault Refusal :=
  .next (s.finish (.bytes (encodeRemoteAtOp mn param mark dest options)))

/-- ENCODE_TX (R204). -/
def execEncodeTx (mark : Mark) (dest : Addr64) (radius options : Byte) (data : Bytes) (s : State) :
    Host.Outcome State Fault Refusal :=
  .next (s.finish (.bytes (encodeTxOp mark dest radius options data)))

end Sys2Proof.Machine
end

