-- ==== Sys2Proof/Machine/Framer.lean ====
section
/-! DEFINITION. The meanings of ENCODE_FRAME, DECODE_FRAME (40_framer.md) and SYNC_STEP (41_synchronizer.md R150). -/

namespace Sys2Proof.Machine

/-- ENCODE_FRAME (R121). -/
def execEncodeFrame (payload : Bytes) (s : State) : Host.Outcome State Fault Refusal :=
  .next (s.finishWith .bytes (encodeFrameOp payload))

/-- DECODE_FRAME (R122). -/
def execDecodeFrame (raw : Bytes) (s : State) : Host.Outcome State Fault Refusal :=
  .next (s.finishWith .bytes (decodeFrameOp raw))

/-- SYNC_STEP (R150): the algorithm of `SYNC_MODE`; `SYNCBUF` is not touched. -/
def execSyncStep (buf : Bytes) (atEnd : Bool) (s : State) : Host.Outcome State Fault Refusal :=
  .next (s.finish (.sync (syncStepOp s.cfg.syncMode buf atEnd)))

end Sys2Proof.Machine
end

