-- ==== Sys2Proof/Machine/Sequencer.lean ====
section
/-! DEFINITION. The session sequencer's shared operations: the START, SEND and WAIT phases of the three session calls,
their completion checks, and the TAKE phase of READ (46_session.md). -/

namespace Sys2Proof.Machine

/-- The payload a session call sends under mark `m` (R270, R275, R280). -/
def callPayload (cfg : Cfg) (op : Call) (m : Mark) : Bytes :=
  match op with
  | .write data => encodeTxOp m cfg.dest64 cfg.txRadius cfg.txOptions data
  | .atCommand mn param queued => encodeAtOp mn param m queued
  | .remoteAtCommand dest options mn param => encodeRemoteAtOp mn param m dest options

/-- The operand length a session call checks at START (R270, R275, R280). -/
def callSize (op : Call) : Nat :=
  match op with
  | .write data => data.length
  | .atCommand _ param _ => (paramBytes param).length
  | .remoteAtCommand _ _ _ param => (paramBytes param).length

/-- The largest operand length that can be framed (R205, R270, R275, R280). -/
def callLimit (op : Call) : Nat :=
  match op with
  | .write _ => 65521
  | .atCommand _ _ _ => 65531
  | .remoteAtCommand _ _ _ _ => 65520

/-- START of a session call (R270): session status, operand size, then ACQUIRE, in the order of R314. -/
def startCall (op : Call) (s : State) : State :=
  match s.sess.ended with
  | some r => s.fail (.transportClosed r)
  | none =>
    if callLimit op < callSize op then s.fail (.payloadTooLarge (callSize op))
    else match acquireOp s with
      | .error e => s.fail e
      | .ok (m, t, s') => s'.setCall s.reqCaller (.session .send op m t)

/-- The SEND phase of the call of the acting caller, with the payload it sends (R270): while the session is open the
frame is queued, tagged with the call's ticket; the call goes on to WAIT. A payload that cannot be framed, which START
has ruled out, ends the call with the framer's error (R205). -/
def sendPhase (p : Bytes) (op : Call) (m : Mark) (t : Ticket) (s : State) : State :=
  if s.sess = .isOpen then
    match encodeFrameOp p with
    | .ok f => { s.setCall s.reqCaller (.session .wait op m t) with txq := s.txq ++ [(t, f)] }
    | .error e => (s.setCall s.reqCaller .idle).fail e
  else s.setCall s.reqCaller (.session .wait op m t)

/-- A produced frame is handed to the framer by a SEND phase and by nothing else (R27): it is the payload of the
acting caller's call in SEND, or nothing is sent (assumption log 5). -/
def sendPayload (p : Bytes) (s : State) : State :=
  match s.callAt s.reqCaller with
  | .session .send op m t => if callPayload s.cfg op m = p then sendPhase p op m t s else s
  | _ => s

/-- FINISH_WRITE (R272). -/
def finishWrite (r data : Bytes) : Completion :=
  if hasType r 0x8B#8 = false then .err (.responseTypeMismatch r.head?)
  else match decodeTxStatusOp r with
    | .error e => .err e
    | .ok x =>
      if x.statusCode ≠ 0x00#8 then .err (.deliveryFailed x.statusCode x.status)
      else .ok (.count data.length)

/-- FINISH_AT (R277). -/
def finishAt (r : Bytes) : Completion :=
  if hasType r 0x88#8 = false then .err (.responseTypeMismatch r.head?)
  else match decodeAtRespOp r with
    | .error e => .err e
    | .ok x =>
      if x.statusCode = 0x00#8 then .ok (.bytes x.data)
      else .err (.remoteRejected x.statusCode x.status)

/-- FINISH_REMOTE_AT (R282). -/
def finishRemoteAt (r : Bytes) : Completion :=
  if hasType r 0x97#8 = false then .err (.responseTypeMismatch r.head?)
  else match decodeRemoteAtRespOp r with
    | .error e => .err e
    | .ok x =>
      if x.statusCode = 0x00#8 then .ok (.bytes x.data)
      else .err (.remoteRejected x.statusCode x.status)

/-- The completion of a session call on the result of its wait (R270, R275, R280). -/
def finishCall (op : Call) (x : Except Err Bytes) : Completion :=
  match x with
  | .error e => .err e
  | .ok r =>
    match op with
    | .write data => finishWrite r data
    | .atCommand _ _ _ => finishAt r
    | .remoteAtCommand _ _ _ _ => finishRemoteAt r

/-- The WAIT phase of the call of caller `c` (R270): held while its slot is `Waiting`, else AWAIT, the final ABANDON
and the completion. -/
def waitPhase (c : CallerId) (op : Call) (m : Mark) (t : Ticket) (s : State) : State :=
  match awaitOp t s with
  | none => s
  | some (s', x) => ((abandonOp m t .abandoned s').setCall c .idle).complete c (finishCall op x)

/-- The end of a caller's hold in AWAIT (R175), or the hold itself. -/
def awaitPhase (c : CallerId) (t : Ticket) (s : State) : State :=
  match awaitOp t s with
  | none => s
  | some (s', .ok b) => (s'.setCall c .idle).complete c (.ok (.bytes b))
  | some (s', .error e) => (s'.setCall c .idle).complete c (.err e)

/-- TAKE and READ_TAKE (R285 to R287): `none` while it is held, else the state after and the result. -/
def takeOp (nmax : Nat) (s : State) : Option (State × Except Err Bytes) :=
  match s.rdbuf with
  | [] =>
    match s.sess with
    | .closed r => some (s, .error (.transportClosed r))
    | _ => none
  | b :: rest => some ({ s with rdbuf := (b :: rest).drop nmax }, .ok ((b :: rest).take nmax))

/-- The end of a caller's hold in TAKE (R285), or the hold itself. -/
def takePhase (c : CallerId) (nmax : Nat) (s : State) : State :=
  match takeOp nmax s with
  | none => s
  | some (s', .ok b) => (s'.setCall c .idle).complete c (.ok (.bytes b))
  | some (s', .error e) => (s'.setCall c .idle).complete c (.err e)

end Sys2Proof.Machine
end

