-- ==== Sys2Proof/Machine/Frames.lean ====
section
/-! DEFINITION. The meanings of the eight API frame types. A frame of a consumed type is what the router does with it
(45_router.md). A frame of a produced type is, on the `sent` side, what the SEND phase that builds it does
(46_session.md R270, R275, R280), and on the `received` side an unrecognized type (R255). -/

namespace Sys2Proof.Machine

/-- AT_COMMAND_FRAME, type `0x08` (R83, R200, R255). -/
def execAtCommandFrame (side : Side) (mark : Mark) (mn : Mnemonic) (param : Bytes) (s : State) :
    Host.Outcome State Fault Refusal :=
  match side with
  | .sent => .next (sendPayload (atPayload 0x08#8 mark mn param) s)
  | .received => .next (routeUnknown (some 0x08#8) s)

/-- QUEUED_AT_COMMAND_FRAME, type `0x09` (R83, R200, R255). -/
def execQueuedAtCommandFrame (side : Side) (mark : Mark) (mn : Mnemonic) (param : Bytes) (s : State) :
    Host.Outcome State Fault Refusal :=
  match side with
  | .sent => .next (sendPayload (atPayload 0x09#8 mark mn param) s)
  | .received => .next (routeUnknown (some 0x09#8) s)

/-- TX_REQUEST_FRAME, type `0x10` (R84, R204, R255). -/
def execTxRequestFrame (side : Side) (mark : Mark) (dest64 : Addr64) (dest16 : Half) (radius options : Byte)
    (data : Bytes) (s : State) : Host.Outcome State Fault Refusal :=
  match side with
  | .sent => .next (sendPayload (txPayload mark dest64 dest16 radius options data) s)
  | .received => .next (routeUnknown (some 0x10#8) s)

/-- REMOTE_AT_COMMAND_FRAME, type `0x17` (R85, R202, R255). -/
def execRemoteAtCommandFrame (side : Side) (mark : Mark) (dest64 : Addr64) (dest16 : Half) (options : Byte)
    (mn : Mnemonic) (param : Bytes) (s : State) : Host.Outcome State Fault Refusal :=
  match side with
  | .sent => .next (sendPayload (remoteAtPayload mark dest64 dest16 options mn param) s)
  | .received => .next (routeUnknown (some 0x17#8) s)

/-- AT_COMMAND_RESPONSE_FRAME, type `0x88` (R88, R252). -/
def execAtCommandResponseFrame (mark : Mark) (mn : Mnemonic) (status : Byte) (data : Bytes) (s : State) :
    Host.Outcome State Fault Refusal :=
  .next (routeResp (decodeAtRespOp (atRespPayload mark mn status data)) (atRespPayload mark mn status data) s)

/-- TX_STATUS_FRAME, type `0x8B` (R89, R253). -/
def execTxStatusFrame (mark : Mark) (dest16 : Half) (retry delivery discovery : Byte) (s : State) :
    Host.Outcome State Fault Refusal :=
  .next (routeResp (decodeTxStatusOp (txStatusPayload mark dest16 retry delivery discovery))
    (txStatusPayload mark dest16 retry delivery discovery) s)

/-- RX_INDICATOR_FRAME, type `0x90` (R90, R251). -/
def execRxIndicatorFrame (src64 : Addr64) (src16 : Half) (options : Byte) (data : Bytes) (s : State) :
    Host.Outcome State Fault Refusal :=
  .next (routeRx (rxPayload src64 src16 options data) s)

/-- REMOTE_COMMAND_RESPONSE_FRAME, type `0x97` (R91, R254). -/
def execRemoteCommandResponseFrame (mark : Mark) (src64 : Addr64) (src16 : Half) (mn : Mnemonic) (status : Byte)
    (data : Bytes) (s : State) : Host.Outcome State Fault Refusal :=
  .next (routeResp (decodeRemoteAtRespOp (remoteRespPayload mark src64 src16 mn status data))
    (remoteRespPayload mark src64 src16 mn status data) s)

end Sys2Proof.Machine
end

