-- ==== Sys2Proof/Machine/Session.lean ====
section
/-! DEFINITION. The meanings of the session requests (46_session.md). WRITE, AT_COMMAND and REMOTE_AT_COMMAND are
presented in their START phase; their SEND and WAIT phases are steps of their own (Machine/Fetch.lean). -/

namespace Sys2Proof.Machine

/-- WRITE (R270). -/
def execWrite (data : Bytes) (s : State) : Host.Outcome State Fault Refusal :=
  .next (startCall (.write data) s)

/-- AT_COMMAND (R275). -/
def execAtCommand (mn : Mnemonic) (param : Option Bytes) (queued : Bool) (s : State) :
    Host.Outcome State Fault Refusal :=
  .next (startCall (.atCommand mn param queued) s)

/-- REMOTE_AT_COMMAND (R280). -/
def execRemoteAtCommand (dest : Addr64) (options : Byte) (mn : Mnemonic) (param : Option Bytes) (s : State) :
    Host.Outcome State Fault Refusal :=
  .next (startCall (.remoteAtCommand dest options mn param) s)

/-- READ (R285): no bytes for `nmax = 0`, else TAKE at once when it is not held (assumption log 7). -/
def execRead (nmax : Nat) (s : State) : Host.Outcome State Fault Refusal :=
  if nmax = 0 then .next (s.finish (.bytes []))
  else match takeOp nmax s with
    | none => .next (s.setCall s.reqCaller (.reading nmax))
    | some (s', x) => .next (s'.finishWith .bytes x)

/-- CLOSE (R292). -/
def execClose (s : State) : Host.Outcome State Fault Refusal :=
  match s.sess.ended with
  | some r => .next (s.fail (.transportClosed r))
  | none => .next ((enterFatal .localClose s).finish .unit)

end Sys2Proof.Machine
end

