-- ==== Sys2Proof/Machine/TagPool.lean ====
section
/-! DEFINITION. The meanings of ACQUIRE, RELEASE, ABANDON and AWAIT (42_tag_pool.md). -/

namespace Sys2Proof.Machine

/-- ACQUIRE (R170). -/
def execAcquire (s : State) : Host.Outcome State Fault Refusal :=
  match acquireOp s with
  | .error e => .next (s.fail e)
  | .ok (m, t, s') => .next (s'.finish (.acquired m t))

/-- RELEASE (R173). -/
def execRelease (mark : Mark) (resp : Bytes) (s : State) : Host.Outcome State Fault Refusal :=
  match releaseError mark s with
  | some e => .next ((releaseOp mark resp s).fail e)
  | none => .next ((releaseOp mark resp s).finish .unit)

/-- ABANDON (R174); a code byte outside `0x01`..`0x11` makes the request malformed (R310, R105). When it takes effect
the free value of the error's info is drawn (assumption log 2). -/
def execAbandon (mark : Mark) (ticket : Ticket) (code : Byte) (s : State) : Host.Outcome State Fault Refusal :=
  match errOfCode s.freeCount code with
  | none => .next (s.fail .invalidRequest)
  | some e =>
    if s.poolAt mark = some ticket then
      .next ({ abandonOp mark ticket e s with freeCount := s.freeCount + 1 }.finish .unit)
    else .next ((abandonOp mark ticket e s).finish .unit)

/-- AWAIT (R175): the caller is held while the slot is `Waiting`, else the request completes at once. -/
def execAwait (ticket : Ticket) (s : State) : Host.Outcome State Fault Refusal :=
  match awaitOp ticket s with
  | none => .next (s.setCall s.reqCaller (.awaiting ticket))
  | some (s', x) => .next (s'.finishWith .bytes x)

end Sys2Proof.Machine
end

