-- ==== Sys2Proof/Machine/Dispatch.lean ====
section
/-! DEFINITION. The dispatch of an instruction to its meaning. -/

namespace Sys2Proof.Machine

def exec (i : Instr) (s : State) : Host.Outcome State Fault Refusal :=
  match i with
  | .atCommandFrame side mark mn param => Sys2Proof.Machine.execAtCommandFrame side mark mn param s
  | .queuedAtCommandFrame side mark mn param => Sys2Proof.Machine.execQueuedAtCommandFrame side mark mn param s
  | .txRequestFrame side mark dest64 dest16 radius options data => Sys2Proof.Machine.execTxRequestFrame side mark dest64 dest16 radius options data s
  | .remoteAtCommandFrame side mark dest64 dest16 options mn param => Sys2Proof.Machine.execRemoteAtCommandFrame side mark dest64 dest16 options mn param s
  | .atCommandResponseFrame mark mn status data => Sys2Proof.Machine.execAtCommandResponseFrame mark mn status data s
  | .txStatusFrame mark dest16 retry delivery discovery => Sys2Proof.Machine.execTxStatusFrame mark dest16 retry delivery discovery s
  | .rxIndicatorFrame src64 src16 options data => Sys2Proof.Machine.execRxIndicatorFrame src64 src16 options data s
  | .remoteCommandResponseFrame mark src64 src16 mn status data => Sys2Proof.Machine.execRemoteCommandResponseFrame mark src64 src16 mn status data s
  | .encodeFrame payload => Sys2Proof.Machine.execEncodeFrame payload s
  | .decodeFrame raw => Sys2Proof.Machine.execDecodeFrame raw s
  | .syncStep buf atEnd => Sys2Proof.Machine.execSyncStep buf atEnd s
  | .acquire => Sys2Proof.Machine.execAcquire s
  | .release mark resp => Sys2Proof.Machine.execRelease mark resp s
  | .abandon mark ticket code => Sys2Proof.Machine.execAbandon mark ticket code s
  | .awaitSlot ticket => Sys2Proof.Machine.execAwait ticket s
  | .encodeAt mn param mark queued => Sys2Proof.Machine.execEncodeAt mn param mark queued s
  | .encodeRemoteAt mn param mark dest options => Sys2Proof.Machine.execEncodeRemoteAt mn param mark dest options s
  | .encodeTx mark dest radius options data => Sys2Proof.Machine.execEncodeTx mark dest radius options data s
  | .decodeAtResp payload => Sys2Proof.Machine.execDecodeAtResp payload s
  | .decodeRemoteAtResp payload => Sys2Proof.Machine.execDecodeRemoteAtResp payload s
  | .decodeRx payload => Sys2Proof.Machine.execDecodeRx payload s
  | .decodeTxStatus payload => Sys2Proof.Machine.execDecodeTxStatus payload s
  | .write data => Sys2Proof.Machine.execWrite data s
  | .atCommand mn param queued => Sys2Proof.Machine.execAtCommand mn param queued s
  | .remoteAtCommand dest options mn param => Sys2Proof.Machine.execRemoteAtCommand dest options mn param s
  | .read nmax => Sys2Proof.Machine.execRead nmax s
  | .close => Sys2Proof.Machine.execClose s

end Sys2Proof.Machine
end

