-- ==== Sys2Proof/WellFormed.lean ====
section
/-! DEFINITION. Which instructions are well formed: the operand checks that the types of `Instr` do not make. -/

namespace Sys2Proof

/-- The `ErrorCode` operand of ABANDON is one of `0x01`..`0x11` (R310). -/
def errorCodeOk (code : Byte) : Bool := decide (1 ≤ code.toNat) && decide (code.toNat ≤ 0x11)

/-- A payload of `n` bytes can be framed (R81: length is 0..65535). -/
def payloadFits (n : Nat) : Bool := decide (n ≤ 65535)

/-- The 16-bit destination field of a frame the block sends is always `0xFFFE` (R86); a received one may hold any
value (R99). -/
def dest16Ok (side : Side) (dest16 : Half) : Bool :=
  match side with
  | .sent => decide (dest16 = 0xFFFE#16)
  | .received => true

/-- An instruction whose operands have the types of R104 and whose frame has a layout of R83 to R91. -/
def Instr.wellFormed (i : Instr) : Bool :=
  match i with
  | .atCommandFrame _ _ _ param => payloadFits (4 + param.length)
  | .queuedAtCommandFrame _ _ _ param => payloadFits (4 + param.length)
  | .txRequestFrame side _ _ dest16 _ _ data => payloadFits (14 + data.length) && dest16Ok side dest16
  | .remoteAtCommandFrame side _ _ dest16 _ _ param => payloadFits (15 + param.length) && dest16Ok side dest16
  | .atCommandResponseFrame _ _ _ data => payloadFits (5 + data.length)
  | .txStatusFrame _ _ _ _ _ => true
  | .rxIndicatorFrame _ _ _ data => payloadFits (12 + data.length)
  | .remoteCommandResponseFrame _ _ _ _ _ data => payloadFits (15 + data.length)
  | .encodeFrame _ => true
  | .decodeFrame _ => true
  | .syncStep _ _ => true
  | .acquire => true
  | .release _ _ => true
  | .abandon _ _ code => errorCodeOk code
  | .awaitSlot _ => true
  | .encodeAt _ _ _ _ => true
  | .encodeRemoteAt _ _ _ _ _ => true
  | .encodeTx _ _ _ _ _ => true
  | .decodeAtResp _ => true
  | .decodeRemoteAtResp _ => true
  | .decodeRx _ => true
  | .decodeTxStatus _ => true
  | .write _ => true
  | .atCommand _ _ _ => true
  | .remoteAtCommand _ _ _ _ => true
  | .read _ => true
  | .close => true

end Sys2Proof
end

