-- ==== Sys2Proof/Decode.lean ====
section
/-! DEFINITION. The decoder from bytes at a port to an instruction, total on any bytes and rejecting by name, and
after it the encoder (30_encoding.md R82 to R91, R103 to R105). -/

namespace Sys2Proof

/-- Why bytes are no instruction. -/
inductive Reject where
  /-- A request record with no byte. -/
  | emptyRequest
  /-- A reserved request code, `0x00` or `0x14`..`0x1F` (R105). -/
  | reservedOp (op : Nat)
  /-- Operands that have not the types of R104 (R105). -/
  | malformedOperands (op : Nat)
  /-- Bytes after the last operand (R105; assumption log 3). -/
  | trailingBytes (op : Nat)
  /-- An empty payload, which has no frame type (R97). -/
  | emptyPayload
  /-- A frame type that the port does not carry: unassigned (R97), or no type the block produces (R82). -/
  | unassignedType (type : Byte)
  /-- A payload that does not have the layout of its frame type (R101). -/
  | badPayload (type : Byte) (e : Machine.Err)
  deriving DecidableEq, Repr

/-- An instruction read together with all of its operands, or the rejection. -/
def finishOperands (op : Nat) (x : Option (Instr × Bytes)) : Except Reject Instr :=
  match x with
  | none => .error (.malformedOperands op)
  | some (i, []) => .ok i
  | some (_, _ :: _) => .error (.trailingBytes op)

/-- The operands of RELEASE: `mark, resp`. -/
def takeRelease (s : Bytes) : Option (Instr × Bytes) := do
  let (mark, s) ← takeByte s
  let (resp, s) ← takeSized s
  some (.release mark resp, s)

/-- The operands of ABANDON: `mark, ticket, code`. -/
def takeAbandon (s : Bytes) : Option (Instr × Bytes) := do
  let (mark, s) ← takeByte s
  let (ticket, s) ← takeNat s
  let (code, s) ← takeByte s
  some (.abandon mark ticket code, s)

/-- The operands of SYNC_STEP: `buf, atEnd`. -/
def takeSyncStep (s : Bytes) : Option (Instr × Bytes) := do
  let (buf, s) ← takeSized s
  let (atEnd, s) ← takeBool s
  some (.syncStep buf atEnd, s)

/-- The operands of ENCODE_AT: `mn, param, mark, queued`. -/
def takeEncodeAt (s : Bytes) : Option (Instr × Bytes) := do
  let (mn, s) ← takeMnemonic s
  let (param, s) ← takeOptBytes s
  let (mark, s) ← takeByte s
  let (queued, s) ← takeBool s
  some (.encodeAt mn param mark queued, s)

/-- The operands of ENCODE_REMOTE_AT: `mn, param, mark, dest, options`. -/
def takeEncodeRemoteAt (s : Bytes) : Option (Instr × Bytes) := do
  let (mn, s) ← takeMnemonic s
  let (param, s) ← takeOptBytes s
  let (mark, s) ← takeByte s
  let (dest, s) ← takeAddr s
  let (options, s) ← takeByte s
  some (.encodeRemoteAt mn param mark dest options, s)

/-- The operands of ENCODE_TX: `mark, dest, radius, options, data`. -/
def takeEncodeTx (s : Bytes) : Option (Instr × Bytes) := do
  let (mark, s) ← takeByte s
  let (dest, s) ← takeAddr s
  let (radius, s) ← takeByte s
  let (options, s) ← takeByte s
  let (data, s) ← takeSized s
  some (.encodeTx mark dest radius options data, s)

/-- The operands of AT_COMMAND: `mn, param, queued`. -/
def takeAtCommand (s : Bytes) : Option (Instr × Bytes) := do
  let (mn, s) ← takeMnemonic s
  let (param, s) ← takeOptBytes s
  let (queued, s) ← takeBool s
  some (.atCommand mn param queued, s)

/-- The operands of REMOTE_AT_COMMAND: `dest, options, mn, param`. -/
def takeRemoteAtCommand (s : Bytes) : Option (Instr × Bytes) := do
  let (dest, s) ← takeAddr s
  let (options, s) ← takeByte s
  let (mn, s) ← takeMnemonic s
  let (param, s) ← takeOptBytes s
  some (.remoteAtCommand dest options mn param, s)

/-- A request with the one operand of type `Bytes`. -/
def takeOneSized (mk : Bytes → Instr) (s : Bytes) : Option (Instr × Bytes) := do
  let (b, s) ← takeSized s
  some (mk b, s)

/-- A request with the one operand of type `Nat` or `Ticket`. -/
def takeOneNat (mk : Nat → Instr) (s : Bytes) : Option (Instr × Bytes) := do
  let (n, s) ← takeNat s
  some (mk n, s)

/-- The operands of the request code `op` (R103, R104), the reserved codes rejected (R105). -/
def decodeOperands (op : Nat) (s : Bytes) : Except Reject Instr :=
  if op = 0x01 then finishOperands op (takeOneSized .encodeFrame s)
  else if op = 0x02 then finishOperands op (takeOneSized .decodeFrame s)
  else if op = 0x03 then finishOperands op (takeSyncStep s)
  else if op = 0x04 then finishOperands op (some (.acquire, s))
  else if op = 0x05 then finishOperands op (takeRelease s)
  else if op = 0x06 then finishOperands op (takeAbandon s)
  else if op = 0x07 then finishOperands op (takeOneNat .awaitSlot s)
  else if op = 0x08 then finishOperands op (takeEncodeAt s)
  else if op = 0x09 then finishOperands op (takeEncodeRemoteAt s)
  else if op = 0x0A then finishOperands op (takeEncodeTx s)
  else if op = 0x0B then finishOperands op (takeOneSized .decodeAtResp s)
  else if op = 0x0C then finishOperands op (takeOneSized .decodeRemoteAtResp s)
  else if op = 0x0D then finishOperands op (takeOneSized .decodeRx s)
  else if op = 0x0E then finishOperands op (takeOneSized .decodeTxStatus s)
  else if op = 0x0F then finishOperands op (takeOneSized .write s)
  else if op = 0x10 then finishOperands op (takeAtCommand s)
  else if op = 0x11 then finishOperands op (takeRemoteAtCommand s)
  else if op = 0x12 then finishOperands op (takeOneNat .read s)
  else if op = 0x13 then finishOperands op (some (.close, s))
  else .error (.reservedOp op)

/-- The request code: the 5-bit `op` field, bits 4..0 of the first byte (R103). -/
def opOf (b : Byte) : Nat := b.toNat % 32

/-- A request record (R104). -/
def decodeRequest (bytes : Bytes) : Except Reject Instr :=
  match bytes with
  | [] => .error .emptyRequest
  | b :: s => decodeOperands (opOf b) s

/-- A payload of one of the four types the block produces (R83 to R85). -/
def decodeProduced (side : Side) (type : Byte) (p : Bytes) : Except Reject Instr :=
  if type = 0x08#8 then
    if p.length < 4 then .error (.badPayload type (.decodeShort p.length))
    else .ok (.atCommandFrame side (byteAt p 1) (mnemonicAt p 2) (p.drop 4))
  else if type = 0x09#8 then
    if p.length < 4 then .error (.badPayload type (.decodeShort p.length))
    else .ok (.queuedAtCommandFrame side (byteAt p 1) (mnemonicAt p 2) (p.drop 4))
  else if type = 0x10#8 then
    if p.length < 14 then .error (.badPayload type (.decodeShort p.length))
    else .ok (.txRequestFrame side (byteAt p 1) (addrAt p 2) (halfAt p 10) (byteAt p 12) (byteAt p 13) (p.drop 14))
  else if type = 0x17#8 then
    if p.length < 15 then .error (.badPayload type (.decodeShort p.length))
    else .ok (.remoteAtCommandFrame side (byteAt p 1) (addrAt p 2) (halfAt p 10) (byteAt p 12) (mnemonicAt p 13)
      (p.drop 15))
  else .error (.unassignedType type)

/-- A payload of one of the four types the block consumes (R88 to R91), by the checks of its decoder. -/
def decodeConsumed (type : Byte) (p : Bytes) : Except Reject Instr :=
  if type = 0x88#8 then
    match Machine.decodeAtRespOp p with
    | .error e => .error (.badPayload type e)
    | .ok r => .ok (.atCommandResponseFrame r.mark r.mnemonic r.statusCode r.data)
  else if type = 0x8B#8 then
    match Machine.decodeTxStatusOp p with
    | .error e => .error (.badPayload type e)
    | .ok r => .ok (.txStatusFrame r.mark r.dest16 r.retryCount r.statusCode (byteAt p 6))
  else if type = 0x90#8 then
    match Machine.decodeRxOp p with
    | .error e => .error (.badPayload type e)
    | .ok r => .ok (.rxIndicatorFrame r.source r.src16 r.options r.payload)
  else if type = 0x97#8 then
    match Machine.decodeRemoteAtRespOp p with
    | .error e => .error (.badPayload type e)
    | .ok r => .ok (.remoteCommandResponseFrame r.mark r.source r.src16 r.mnemonic r.statusCode r.data)
  else decodeProduced .received type p

/-- A payload that the receive engine has validated: any of the eight frame types (R82). -/
def decodeReceived (p : Bytes) : Except Reject Instr :=
  match p with
  | [] => .error .emptyPayload
  | type :: _ => decodeConsumed type p

/-- A payload that a SEND phase hands to the framer: one of the four produced types (R82). -/
def decodeSent (p : Bytes) : Except Reject Instr :=
  match p with
  | [] => .error .emptyPayload
  | type :: _ => decodeProduced .sent type p

/-- The decoder. -/
def decode (port : Port) (bytes : Bytes) : Except Reject Instr :=
  match port with
  | .hostRequest => decodeRequest bytes
  | .received => decodeReceived bytes
  | .sent => decodeSent bytes

/-! ## The encoder -/

/-- The port on which a frame of a produced type is presented. -/
def Side.port (side : Side) : Port :=
  match side with
  | .sent => .sent
  | .received => .received

/-- The port and the bytes of an instruction (R83 to R91, R103, R104). -/
def encode (i : Instr) : Port × Bytes :=
  match i with
  | .atCommandFrame side mark mn param => (side.port, Machine.atPayload 0x08#8 mark mn param)
  | .queuedAtCommandFrame side mark mn param => (side.port, Machine.atPayload 0x09#8 mark mn param)
  | .txRequestFrame side mark dest64 dest16 radius options data =>
    (side.port, Machine.txPayload mark dest64 dest16 radius options data)
  | .remoteAtCommandFrame side mark dest64 dest16 options mn param =>
    (side.port, Machine.remoteAtPayload mark dest64 dest16 options mn param)
  | .atCommandResponseFrame mark mn status data => (.received, Machine.atRespPayload mark mn status data)
  | .txStatusFrame mark dest16 retry delivery discovery =>
    (.received, Machine.txStatusPayload mark dest16 retry delivery discovery)
  | .rxIndicatorFrame src64 src16 options data => (.received, Machine.rxPayload src64 src16 options data)
  | .remoteCommandResponseFrame mark src64 src16 mn status data =>
    (.received, Machine.remoteRespPayload mark src64 src16 mn status data)
  | .encodeFrame payload => (.hostRequest, 0x01#8 :: sizedBytes payload)
  | .decodeFrame raw => (.hostRequest, 0x02#8 :: sizedBytes raw)
  | .syncStep buf atEnd => (.hostRequest, 0x03#8 :: (sizedBytes buf ++ [boolByte atEnd]))
  | .acquire => (.hostRequest, [0x04#8])
  | .release mark resp => (.hostRequest, 0x05#8 :: mark :: sizedBytes resp)
  | .abandon mark ticket code => (.hostRequest, 0x06#8 :: mark :: (natBytes ticket ++ [code]))
  | .awaitSlot ticket => (.hostRequest, 0x07#8 :: natBytes ticket)
  | .encodeAt mn param mark queued =>
    (.hostRequest, 0x08#8 :: (mn.bytes ++ optBytes param ++ [mark, boolByte queued]))
  | .encodeRemoteAt mn param mark dest options =>
    (.hostRequest, 0x09#8 :: (mn.bytes ++ optBytes param ++ [mark] ++ be64bytes dest ++ [options]))
  | .encodeTx mark dest radius options data =>
    (.hostRequest, 0x0A#8 :: mark :: (be64bytes dest ++ [radius, options] ++ sizedBytes data))
  | .decodeAtResp payload => (.hostRequest, 0x0B#8 :: sizedBytes payload)
  | .decodeRemoteAtResp payload => (.hostRequest, 0x0C#8 :: sizedBytes payload)
  | .decodeRx payload => (.hostRequest, 0x0D#8 :: sizedBytes payload)
  | .decodeTxStatus payload => (.hostRequest, 0x0E#8 :: sizedBytes payload)
  | .write data => (.hostRequest, 0x0F#8 :: sizedBytes data)
  | .atCommand mn param queued => (.hostRequest, 0x10#8 :: (mn.bytes ++ optBytes param ++ [boolByte queued]))
  | .remoteAtCommand dest options mn param =>
    (.hostRequest, 0x11#8 :: (be64bytes dest ++ [options] ++ mn.bytes ++ optBytes param))
  | .read nmax => (.hostRequest, 0x12#8 :: natBytes nmax)
  | .close => (.hostRequest, [0x13#8])

/-! ## The words of the opcode table -/

/-- How many operand bytes follow the request code when every one of them is 0. -/
def zeroOperandBytes (op : Nat) : Nat :=
  if op = 0x03 then 2
  else if op = 0x05 then 2
  else if op = 0x06 then 3
  else if op = 0x08 then 5
  else if op = 0x09 then 13
  else if op = 0x0A then 12
  else if op = 0x10 then 4
  else if op = 0x11 then 12
  else if op = 0x04 ∨ op = 0x13 then 0
  else 1

/-- How many payload bytes follow the frame type when every one of them is 0 and the variable part is empty
(R101). -/
def zeroHeaderBytes (type : Nat) : Nat :=
  if type = 0x08 ∨ type = 0x09 then 3
  else if type = 0x10 then 13
  else if type = 0x17 then 14
  else if type = 0x88 then 4
  else if type = 0x8B then 6
  else if type = 0x90 then 11
  else 14

/-- The first byte of a table word is a frame type (R82). Three values, `0x08`, `0x09` and `0x10`, are also request
codes: a word of eight bits or more is read as the frame, a shorter one as the request (assumption log 4). -/
def isFrameWord (nbits b : Nat) : Bool :=
  decide (8 ≤ nbits) && [0x08, 0x09, 0x10, 0x17, 0x88, 0x8B, 0x90, 0x97].contains b

/-- `n` bytes of the word, its least significant first. -/
def wordBytes : Nat → Nat → Bytes
  | 0, _ => []
  | n + 1, w => BitVec.ofNat 8 (w % 256) :: wordBytes n (w / 256)

/-- The port and the bytes that a table word of `nbits` bits stands for, every bit above `nbits` being 0. -/
def tableWord (nbits w : Nat) : Port × Bytes :=
  let v := w % 2 ^ nbits
  let b := v % 256
  if isFrameWord nbits b then (.received, wordBytes (1 + zeroHeaderBytes b) v)
  else (.hostRequest, wordBytes (1 + zeroOperandBytes (b % 32)) v)

/-- The instruction that the decoder reads from a table word. -/
def decodeTableWord (nbits w : Nat) : Option Instr :=
  match decode (tableWord nbits w).1 (tableWord nbits w).2 with
  | .ok i => some i
  | .error _ => none

end Sys2Proof
end

