-- ==== Sys2Proof/Machine/Engines.lean ====
section
/-! DEFINITION. The steps of the receive engine, the transmit engine, the transport and the timeout source: INGEST,
SCAN, FINALIZE (41_synchronizer.md), TX_SEND, RX_END and TIMEOUT (46_session.md). A step that is drawn while it is not
enabled is not taken and changes nothing (assumption log 8). -/

namespace Sys2Proof.Machine

/-- INGEST (R145). -/
def ingest (ch : Bytes) (s : State) : State :=
  if s.sess = .isOpen ∧ ch ≠ [] then { s with syncbuf := s.syncbuf ++ ch } else s

/-- The synchronizer's answer on `SYNCBUF` (R146). -/
def scanResult (s : State) : SyncResult := syncStepOp s.cfg.syncMode s.syncbuf s.sess.atEnd

/-- `SESS = CLOSED(r)`. -/
def isClosed (s : SessionStatus) : Bool :=
  match s with
  | .closed _ => true
  | _ => false

/-- The enabling condition of SCAN (R146). -/
def scanEnabled (s : State) : Bool :=
  !isClosed s.sess && (decide (0 < (scanResult s).consumed) || (scanResult s).frame.isSome)

/-- The noise bytes of a synchronizer answer: the consumed ones that are not the frame's (R146). -/
def SyncResult.noise (r : SyncResult) : Nat := r.consumed - (match r.frame with | none => 0 | some g => g.length)

/-- The events of a SCAN before its frame is decoded (R146). -/
def noiseEvents (r : SyncResult) : List Event :=
  (if 0 < r.noise then [.noiseDiscarded r.noise] else []) ++
    (match r.note with | none => [] | some n => [.falseStart n])

/-- SCAN up to the decoding of its frame: noise reported, `SYNCBUF` shortened at its front (R146). -/
def scanConsume (s : State) : State :=
  { s with diag := s.diag ++ noiseEvents (scanResult s), syncbuf := s.syncbuf.drop (scanResult s).consumed }

/-- The event for the bytes that FINALIZE leaves unread (R148). -/
def leftoverEvents (s : State) : List Event :=
  (if s.syncbuf = [] then [] else [.noiseDiscarded s.syncbuf.length]) ++
    (if s.txq = [] then [] else [.txDiscarded s.txq.length])

/-- FINALIZE (R148): enabled in `CLOSING(r)` when no SCAN is. -/
def finalize (s : State) : State :=
  match s.sess with
  | .closing r =>
    if scanEnabled s then s
    else { forceReleaseAll (.transportClosed r)
             { s with diag := s.diag ++ leftoverEvents s, syncbuf := [], txq := [] } with sess := .closed r }
  | _ => s

/-- TX_SEND (R290): the head of `TXQ` is written whole, or the write fails with `j` bytes of it on the wire and the
session ends. A failure with no byte missing is no answer of the transport (R290: `0 <= j < len(f)`). -/
def txSend (o : WriteOutcome) (s : State) : State :=
  if s.sess = .isOpen then
    match s.txq with
    | [] => s
    | (_, f) :: rest =>
      match o with
      | .ok => { s with txq := rest, wireOut := s.wireOut ++ f }
      | .fail j =>
        if j < f.length then enterFatal .writeError { s with txq := rest, wireOut := s.wireOut ++ f.take j } else s
  else s

/-- The reason that RX_END records (R293). -/
def RxEndReason.reason (r : RxEndReason) : Reason :=
  match r with
  | .readEOF => .readEOF
  | .readError => .readError

/-- RX_END (R293). -/
def rxEnd (r : RxEndReason) (s : State) : State :=
  if s.sess = .isOpen then enterFatal r.reason s else s

/-- TIMEOUT of the call of caller `c` (R296). -/
def timeoutStep (c : CallerId) (s : State) : State :=
  match s.callAt c with
  | .session .wait _ m t =>
    if s.cfg.timeoutEnabled = true ∧ s.slotAt t = .waiting then
      abandonOp m t .timeout { s with txq := s.txq.filter (fun e => e.1 != t) }
    else s
  | _ => s

end Sys2Proof.Machine
end

