-- ==== Sys2Proof/Machine/Fetch.lean ====
section
/-! DEFINITION. What the next step is: the input at the head of the list is taken, and where it presents an
instruction (a request record on the host request port, a validated payload in the receive engine, a SEND phase that
hands its payload to the framer) the instruction is decoded for `exec`. -/

namespace Sys2Proof.Machine

/-- What a step comes to: an instruction to run in a state, or a state with no instruction to run. -/
inductive Fetched where
  | run (i : Instr) (s : State)
  | done (s : State)
  deriving DecidableEq, Repr

/-- A validated payload: its instruction, or for a payload that is none the router's own arm (R250). -/
def fetchPayload (p : Bytes) (s : State) : Fetched :=
  match decode .received p with
  | .ok i => .run i s
  | .error _ => .done (dispatchPayload p s)

/-- SCAN (R146). -/
def fetchScan (s : State) : Fetched :=
  if scanEnabled s then
    match (scanResult s).frame with
    | none => .done (scanConsume s)
    | some g =>
      match decodeFrameOp g with
      | .error e => .done ((scanConsume s).emit (.badFrame e))
      | .ok p => fetchPayload p (scanConsume s)
  else .done s

/-- A request record of caller `c` (R8, R103 to R105): taken when `c` is idle (R34); a reserved code or malformed
operands complete with `InvalidRequest` and change nothing else. -/
def fetchRequest (c : CallerId) (bytes : Bytes) (s : State) : Fetched :=
  if s.callAt c = .idle then
    match decode .hostRequest bytes with
    | .ok i => .run i { s with reqCaller := c }
    | .error _ => .done ({ s with reqCaller := c }.fail .invalidRequest)
  else .done s

/-- The SEND phase of caller `c`: its payload is the frame that is run. -/
def fetchSend (c : CallerId) (op : Call) (m : Mark) (s : State) : Fetched :=
  match decode .sent (callPayload s.cfg op m) with
  | .ok i => .run i { s with reqCaller := c }
  | .error _ => .done s

/-- The next phase of caller `c` (R34, R295). -/
def fetchPhase (c : CallerId) (s : State) : Fetched :=
  match s.callAt c with
  | .idle => .done s
  | .session .send op m _ => fetchSend c op m s
  | .session .wait op m t => .done (waitPhase c op m t s)
  | .awaiting t => .done (awaitPhase c t s)
  | .reading nmax => .done (takePhase c nmax s)

/-- Takes one input. Configuration inputs that R21 does not allow cannot be driven at reset. -/
def fetchInput (x : Input) (s : State) : Fetched :=
  match x with
  | .reset cfg => .done (if cfg.valid then resetStep cfg s else s)
  | .request c bytes => fetchRequest c bytes s
  | .phase c => fetchPhase c s
  | .chunk ch => .done (ingest ch s)
  | .rxEnd r => .done (rxEnd r s)
  | .scan => fetchScan s
  | .finalize => .done (finalize s)
  | .txSend o => .done (txSend o s)
  | .timeout c => .done (timeoutStep c s)

/-- The next step: with no input left, no agent moves and nothing changes (assumption log 8). -/
def fetch (s : State) : Fetched :=
  match s.inputs with
  | [] => .done s
  | x :: rest => fetchInput x { s with inputs := rest }

/-- A caller that has no call in progress: one above every listed caller. -/
def State.someIdleCaller (s : State) : CallerId := s.calls.foldl (fun a e => max a (e.1 + 1)) 0

/-- The state with the bytes of an instruction where the next step fetches it: a request record presented by an idle
caller, or a frame at the front of `SYNCBUF` and a SCAN. -/
def placeWord (port : Port) (bytes : Bytes) (s : State) : State :=
  match port with
  | .hostRequest => { s with inputs := .request s.someIdleCaller bytes :: s.inputs }
  | _ =>
    match encodeFrameOp bytes with
    | .ok f => { s with syncbuf := f ++ s.syncbuf, inputs := .scan :: s.inputs }
    | .error _ => s

end Sys2Proof.Machine
end

