-- ==== Sys2Proof/Machine/Step.lean ====
section
/-! DEFINITION. One step of the block, and the placing of a table word where the next step fetches it. -/

namespace Sys2Proof.Machine

/-- One step: the next input is taken and the instruction it presents, if any, is run. -/
def step (s : State) : Host.Outcome State Fault Refusal :=
  match fetch s with
  | .run i s' => exec i s'
  | .done s' => .next s'

/-- The state with a word of the opcode table placed where the next step fetches its instruction. -/
def State.withFetchWord (s : State) (nbits w : Nat) : State :=
  placeWord (tableWord nbits w).1 (tableWord nbits w).2 s

end Sys2Proof.Machine
end

