-- ==== Sys2Proof/Safety.lean ====
section
/-! DEFINITION. The terms of the claims: what a safe state of the block is, and how two states may differ by a step. -/

namespace Sys2Proof.Machine

/-! ## Safe states -/

/-- The ticket that a caller holds in a session call or in AWAIT (R34). -/
def CallState.ticket (x : CallState) : Option Ticket :=
  match x with
  | .idle => none
  | .session _ _ _ t => some t
  | .awaiting t => some t
  | .reading _ => none

/-- How many marks are reserved (R36 (e)). -/
def reservedCount (s : State) : Nat := s.pool.toList.countP Option.isSome

/-- The invariants of R36, clauses (a) to (e) in order, and what R31 says of an unused slot. -/
structure PoolInv (s : State) : Prop where
  markZero : s.poolAt 0#8 = none
  injective : ∀ (m m' : Mark) (t : Ticket), s.poolAt m = some t → s.poolAt m' = some t → m = m'
  waiting : ∀ t : Ticket, s.slotAt t = .waiting ↔ ∃ m : Mark, s.poolAt m = some t
  poolTickets : ∀ (m : Mark) (t : Ticket), s.poolAt m = some t → t < s.nextTicket
  txqTickets : ∀ e ∈ s.txq, e.1 < s.nextTicket
  callTickets : ∀ (c : CallerId) (t : Ticket), (s.callAt c).ticket = some t → t < s.nextTicket
  capacity : reservedCount s ≤ 255
  unused : ∀ t : Ticket, s.slotAt t = .unused ↔ s.nextTicket ≤ t

/-- Every frame waiting for the transmit engine is a whole frame that DECODE_FRAME accepts (R27). -/
def QueueInv (s : State) : Prop := ∀ e ∈ s.txq, ∃ p, decodeFrameOp e.2 = .ok p

/-- What the operands of the calls in progress, the mark they hold and the read buffer obey: START has checked the
operand size and ACQUIRE never hands out mark 0 (R270, R275, R280, R170), and RDBUF stays within its capacity (R251). -/
structure SizeInv (s : State) : Prop where
  calls : ∀ (c : CallerId) (ph : Phase) (op : Call) (m : Mark) (t : Ticket),
    s.callAt c = .session ph op m t → callSize op ≤ callLimit op ∧ m ≠ 0#8
  rdbuf : ∀ n : Nat, s.cfg.rdbufCap = some n → s.rdbuf.length ≤ n

/-- What `SESS` says of the rest of the state: the close control is asserted exactly when the session is not open
(R316), and a closed session has nothing buffered, nothing queued and no mark reserved (R148, R176). -/
structure SessionInv (s : State) : Prop where
  closeControl : s.closeCtl = s.sess.atEnd
  closedQuiet : ∀ r : Reason, s.sess = .closed r → s.syncbuf = [] ∧ s.txq = [] ∧ ∀ m : Mark, m ≠ 0#8 → s.poolAt m = none

/-- A session call whose slot is waiting holds its mark in the pool: the mark and the ticket of its locals are those that
ACQUIRE paired (R170, R270, R275, R280), until a response, a timeout or the end of the session (R298). -/
def HoldInv (s : State) : Prop :=
  ∀ (c : CallerId) (ph : Phase) (op : Call) (m : Mark) (t : Ticket),
    s.callAt c = .session ph op m t → s.slotAt t = .waiting → s.poolAt m = some t

/-- The sparse tables keep their canonical form, and the configuration inputs have the types of R21: the MODEL's own
invariant. -/
structure FormInv (s : State) : Prop where
  slots : tableWf .unused s.slots = true
  calls : tableWf .idle s.calls = true
  cfg : s.cfg.valid = true

/-- The next input is the reset input (R340). -/
def takesReset (s : State) : Bool :=
  match s.inputs with
  | .reset _ :: _ => true
  | _ => false

/-! ## How a step may change a state -/

/-- The acting caller's request is answered and nothing else changes. -/
def answered (s : State) (x : Completion) : State :=
  { s with completions := s.completions ++ [(s.reqCaller, x)] }

/-- The moves of a slot (R31): `Unused` to `Waiting`, `Waiting` to `Done` or `Failed`, either of these to `Retired`. -/
def slotMoves (a b : SlotState) : Prop :=
  match a with
  | .unused => b = .waiting
  | .waiting => (∃ r, b = .done r) ∨ (∃ e, b = .failed e)
  | .done _ => b = .retired
  | .failed _ => b = .retired
  | .retired => False

/-- The moves of `SESS` (R22): `OPEN` to `CLOSING(r)`, and `CLOSING(r)` to `CLOSED(r)` with the same reason. -/
def sessMoves (a b : SessionStatus) : Prop :=
  match a with
  | .isOpen => ∃ r, b = .closing r
  | .closing r => b = .closed r
  | .closed _ => False

/-- `n` requests of the same kind, one after the other. -/
def execTimes (i : Instr) : Nat → State → Host.Outcome State Fault Refusal
  | 0, s => .next s
  | n + 1, s =>
    match execTimes i n s with
    | .next s' => exec i s'
    | .fault f => .fault f
    | .refused r => .refused r

/-- What is left of a buffer after `n` synchronizer steps at the end of the stream (R144). -/
def drainBuffer (mode : SyncMode) : Nat → Bytes → Bytes
  | 0, buf => buf
  | n + 1, buf => drainBuffer mode n (buf.drop (syncStepOp mode buf true).consumed)

/-- The candidate frame at the front of a buffer is not complete yet (R141, R142). -/
def incompleteCandidate (buf : Bytes) : Prop :=
  buf.length < 4 ∨ buf.length < be16 (byteAt buf 1) (byteAt buf 2) + 4

/-- `be64` of the eight bytes from offset `k`, as R12 writes the sum. -/
def be64Sum (s : Bytes) (k : Nat) : Nat := ((List.range 8).map (fun j => (byteAt s (k + j)).toNat * 256 ^ (7 - j))).sum

/-- `be64bytes`, as R12 writes it: byte `j` is bits `63 - 8j` down to `56 - 8j`. -/
def be64Digits (a : Addr64) : Bytes := (List.range 8).map (fun j => BitVec.ofNat 8 (a.toNat / 256 ^ (7 - j)))

/-- `m` is the lowest free mark above 0 (R170). -/
def lowestFree (s : State) (m : Mark) : Prop :=
  m ≠ 0#8 ∧ s.poolAt m = none ∧ ∀ m' : Mark, m' ≠ 0#8 → m'.toNat < m.toNat → s.poolAt m' ≠ none

/-- All 255 marks are reserved (R170). -/
def allReserved (s : State) : Prop := ∀ m : Mark, m ≠ 0#8 → s.poolAt m ≠ none

/-- `POOL` after is `POOL` before but for mark `m`. -/
def poolChanged (s u : State) (m : Mark) (o : Option Ticket) : Prop :=
  ∀ m' : Mark, u.poolAt m' = if m' = m then o else s.poolAt m'

/-- `SLOT` after is `SLOT` before but for ticket `t`. -/
def slotChanged (s u : State) (t : Ticket) (v : SlotState) : Prop :=
  ∀ k : Ticket, u.slotAt k = if k = t then v else s.slotAt k

/-- `CALLS` after is `CALLS` before but for caller `c`. -/
def callChanged (s u : State) (c : CallerId) (v : CallState) : Prop :=
  ∀ k : CallerId, u.callAt k = if k = c then v else s.callAt k

end Sys2Proof.Machine
end

