-- ==== Sys2Proof/Certificates/Slice0/Obligations.lean ====
section
/-! DEFINITION. The statements about the block, for the provers. A record update in a conclusion is the frame: every
field it does not name is as before. -/

open Sys2Proof Sys2Proof.Machine

/-! ## Encoding -/

/-- Decoding the encoding of an instruction gives the instruction back, for every instruction, well formed or not. For
the frames it is the layouts of 30_encoding.md R83 to R91; the record form of the requests is the model's choice
(assumption log 3). -/
def Obligations.DecodeOfEncodedInstruction : Prop :=
  ∀ i : Instr, decode (encode i).1 (encode i).2 = .ok i

/-- A received payload that is an instruction is exactly the encoding of that instruction: no byte is dropped or read
twice (30_encoding.md sections 3, 4 and 6). -/
def Obligations.EncodeOfDecodedPayload : Prop :=
  ∀ (p : Bytes) (i : Instr), decode .received p = .ok i → encode i = (.received, p)

/-- Words written out from the layouts of 30_encoding.md and the vectors of 95_test_vectors.md decode to the
instructions they stand for; the two request records have the model's byte form (assumption log 3). -/
def Obligations.KnownWordsDecode : Prop :=
  decode .received [0x88#8, 0x01#8, 0x49#8, 0x44#8, 0x00#8] =
    .ok (.atCommandResponseFrame 0x01#8 ⟨0x49#8, 0x44#8⟩ 0x00#8 []) ∧
  decode .received [0x8B#8, 0x01#8, 0xFF#8, 0xFE#8, 0x03#8, 0x01#8, 0x00#8] =
    .ok (.txStatusFrame 0x01#8 0xFFFE#16 0x03#8 0x01#8 0x00#8) ∧
  decode .received [0x90#8, 0x00#8, 0x13#8, 0xA2#8, 0x00#8, 0x40#8, 0xA1#8, 0xB2#8, 0xC3#8, 0xFF#8, 0xFE#8, 0x01#8,
      0x41#8, 0x42#8] =
    .ok (.rxIndicatorFrame 0x0013A20040A1B2C3#64 0xFFFE#16 0x01#8 [0x41#8, 0x42#8]) ∧
  decode .sent [0x17#8, 0x03#8, 0x00#8, 0x13#8, 0xA2#8, 0x00#8, 0x40#8, 0xA1#8, 0xB2#8, 0xC3#8, 0xFF#8, 0xFE#8, 0x02#8,
      0x44#8, 0x30#8, 0x04#8] =
    .ok (.remoteAtCommandFrame .sent 0x03#8 0x0013A20040A1B2C3#64 0xFFFE#16 0x02#8 ⟨0x44#8, 0x30#8⟩ [0x04#8]) ∧
  decode .hostRequest [0x04#8] = .ok .acquire ∧
  decode .hostRequest [0x13#8] = .ok .close

/-- Malformed requests (30_encoding.md R105): the reserved codes are no instruction; a record that is no instruction, a
reserved code or operands without the types of R104, completes with `InvalidRequest` and changes no state, and so does
an ABANDON whose code is outside `0x01`..`0x11`. Which bytes are a record is the model's choice (assumption log 3). -/
def Obligations.MalformedRequestsAreInvalid : Prop :=
  (∀ (b : Byte) (ops : Bytes), opOf b = 0x00 ∨ 0x14 ≤ opOf b →
    decode .hostRequest (b :: ops) = .error (.reservedOp (opOf b))) ∧
  (∀ c0 : Byte, decode .hostRequest [0x08#8, c0] = .error (.malformedOperands 0x08)) ∧
  (∀ (s : State) (c : CallerId) (bytes : Bytes) (rest : List Input) (e : Reject),
    s.inputs = .request c bytes :: rest → s.callAt c = .idle → decode .hostRequest bytes = .error e →
    step s = .next (answered { s with inputs := rest, reqCaller := c } (.err .invalidRequest))) ∧
  (∀ (m : Mark) (t : Ticket) (code : Byte) (s : State), errorCodeOk code = false →
    exec (.abandon m t code) s = .next (answered s (.err .invalidRequest)))

/-! ## Steps -/

/-- A step runs the decoded instruction: a request record of an idle caller, the payload of a SEND phase, and the
payload of a frame that SCAN finds. What the step adds around it: the input is consumed, the acting caller is recorded,
and for SCAN the noise is reported and `SYNCBUF` shortened. The list of inputs and the acting caller are the model's own
(assumption log 8). The second clause is the model's form: that a SEND phase decodes its payload and runs it as an
instruction is its choice (assumption log 5), where 46_session.md R270 has the phase push the frame itself. -/
def Obligations.StepRunsTheDecodedInstruction : Prop :=
  (∀ (s : State) (c : CallerId) (bytes : Bytes) (rest : List Input) (i : Instr),
    s.inputs = .request c bytes :: rest → s.callAt c = .idle → decode .hostRequest bytes = .ok i →
    step s = exec i { s with inputs := rest, reqCaller := c }) ∧
  (∀ (s : State) (c : CallerId) (rest : List Input) (op : Call) (m : Mark) (t : Ticket) (i : Instr),
    s.inputs = .phase c :: rest → s.callAt c = .session .send op m t →
    decode .sent (callPayload s.cfg op m) = .ok i →
    step s = exec i { s with inputs := rest, reqCaller := c }) ∧
  (∀ (s : State) (rest : List Input) (r : SyncResult) (g p : Bytes) (i : Instr),
    s.inputs = .scan :: rest → isClosed s.sess = false → syncStepOp s.cfg.syncMode s.syncbuf s.sess.atEnd = r →
    r.frame = some g → decodeFrameOp g = .ok p → decode .received p = .ok i →
    step s = exec i { s with
      inputs := rest
      syncbuf := s.syncbuf.drop r.consumed
      diag := s.diag ++ (if 0 < r.consumed - g.length then [.noiseDiscarded (r.consumed - g.length)] else []) })

/-- Every step has a next state: nothing that arrives or is asked stops the block (45_router.md R250, R255;
41_synchronizer.md R146). -/
def Obligations.EveryStepHasANextState : Prop :=
  ∀ s : State, ∃ t : State, step s = .next t

/-! ## Checksum and framer -/

/-- The checksum and its validator (40_framer.md R120): the value, the equivalent form, the corner cases, the detection
of every single-byte change and the two changes that cancel. -/
def Obligations.ChecksumLaws : Prop :=
  (∀ p : Bytes, (cks p).toNat = 255 - (p.map BitVec.toNat).sum % 256) ∧
  (∀ (p : Bytes) (c : Byte), c = cks p ↔ ((p.map BitVec.toNat).sum + c.toNat) % 256 = 255) ∧
  cks [] = 0xFF#8 ∧
  (∀ p : Bytes, (p.map BitVec.toNat).sum % 256 = 0 → cks p = 0xFF#8) ∧
  (∀ p : Bytes, (p.map BitVec.toNat).sum % 256 = 255 → cks p = 0x00#8) ∧
  (∀ (p : Bytes) (k : Nat) (d : Byte), k < p.length → d ≠ 0#8 → cks (p.set k (byteAt p k + d)) ≠ cks p) ∧
  (∀ (p : Bytes) (c d : Byte), c = cks p → d ≠ 0#8 → c + d ≠ cks p) ∧
  (∀ (p : Bytes) (j k : Nat) (d : Byte), j < p.length → k < p.length → j ≠ k →
    cks ((p.set j (byteAt p j + d)).set k (byteAt p k - d)) = cks p) ∧
  cks [0x23#8, 0x11#8] = 0xCB#8

/-- ENCODE_FRAME (40_framer.md R121): the wire frame, or `FrameTooLarge` for a payload of more than 65535 bytes; no
state is written. -/
def Obligations.EncodeFrameBuildsTheWireFrame : Prop :=
  ∀ (p : Bytes) (s : State), exec (.encodeFrame p) s = .next (answered s
    (if 65535 < p.length then .err (.frameTooLarge p.length)
     else .ok (.bytes ([0x7E#8, BitVec.ofNat 8 (p.length / 256), BitVec.ofNat 8 (p.length % 256)] ++ p ++ [cks p]))))

/-- DECODE_FRAME and the precedence of its errors (40_framer.md R122, R123): the delimiter, then the length, then the
checksum; no state is written. -/
def Obligations.DecodeFrameChecksInOrder : Prop :=
  ∀ (raw : Bytes) (s : State), exec (.decodeFrame raw) s = .next (answered s
    (if raw.head? ≠ some 0x7E#8 then .err .invalidDelimiter
     else if raw.length < 4 then .err (.lengthMismatch raw.length)
     else if raw.length ≠ be16 (byteAt raw 1) (byteAt raw 2) + 4 then .err (.lengthMismatch raw.length)
     else if byteAt raw (raw.length - 1) ≠ cks (raw.drop 3).dropLast then
       .err (.checksumMismatch (byteAt raw (raw.length - 1)) (cks (raw.drop 3).dropLast))
     else .ok (.bytes (raw.drop 3).dropLast)))

/-- Round trip of the framer (40_framer.md R124). -/
def Obligations.DecodeOfEncodedFrame : Prop :=
  ∀ (p : Bytes) (s : State), p.length ≤ 65535 →
    ∃ f, exec (.encodeFrame p) s = .next (answered s (.ok (.bytes f))) ∧
      exec (.decodeFrame f) s = .next (answered s (.ok (.bytes p)))

/-- Single-byte corruption of an encoded frame (40_framer.md R125): the error for each byte position. -/
def Obligations.SingleByteCorruptionIsDetected : Prop :=
  ∀ (p f : Bytes) (k : Nat) (b : Byte), encodeFrameOp p = .ok f → k < f.length → b ≠ byteAt f k →
    (k = 0 → decodeFrameOp (f.set k b) = .error .invalidDelimiter) ∧
    (k = 1 ∨ k = 2 → decodeFrameOp (f.set k b) = .error (.lengthMismatch f.length)) ∧
    (3 ≤ k → ∃ got computed, decodeFrameOp (f.set k b) = .error (.checksumMismatch got computed))

/-! ## Synchronizer -/

/-- The interface of SYNC_STEP (41_synchronizer.md R140), in both modes: no more is consumed than is there, and an
emitted frame is the last consumed bytes, begins with the delimiter and has the size its length field says. -/
def Obligations.SynchronizerResultShape : Prop :=
  ∀ (mode : SyncMode) (buf : Bytes) (atEnd : Bool) (r : SyncResult), syncStepOp mode buf atEnd = r →
    r.consumed ≤ buf.length ∧
    ∀ f : Bytes, r.frame = some f →
      f.length ≤ r.consumed ∧ f = slice buf (r.consumed - f.length) r.consumed ∧ f.head? = some 0x7E#8 ∧
      f.length = be16 (byteAt f 1) (byteAt f 2) + 4

/-- SYNC_STEP in LITERAL mode (41_synchronizer.md R141): by the first delimiter, with no regard to the end of the
stream or to the checksum. -/
def Obligations.LiteralModeTakesTheFirstCandidate : Prop :=
  (∀ (buf : Bytes) (atEnd : Bool), 0x7E#8 ∉ buf → syncStepOp .literal buf atEnd = ⟨buf.length, none, none⟩) ∧
  (∀ (g r : Bytes) (atEnd : Bool), 0x7E#8 ∉ g →
    syncStepOp .literal (g ++ 0x7E#8 :: r) atEnd =
      if r.length < 3 then ⟨g.length, none, none⟩
      else if r.length + 1 < be16 (byteAt r 0) (byteAt r 1) + 4 then ⟨g.length, none, none⟩
      else ⟨g.length + (be16 (byteAt r 0) (byteAt r 1) + 4),
        some ((0x7E#8 :: r).take (be16 (byteAt r 0) (byteAt r 1) + 4)), none⟩)

/-- SYNC_STEP in HUNT mode (41_synchronizer.md R142): a complete candidate is emitted when its checksum is valid and
costs its delimiter otherwise; an incomplete one waits, or at the end of the stream costs its delimiter. A frame it
emits passes DECODE_FRAME, and before the end of the stream it waits exactly when LITERAL does. -/
def Obligations.HuntModeTakesTheFirstValidCandidate : Prop :=
  (∀ (buf : Bytes) (atEnd : Bool), 0x7E#8 ∉ buf → syncStepOp .hunt buf atEnd = ⟨buf.length, none, none⟩) ∧
  (∀ (g r : Bytes) (atEnd : Bool), 0x7E#8 ∉ g →
    syncStepOp .hunt (g ++ 0x7E#8 :: r) atEnd =
      if r.length < 3 ∨ r.length + 1 < be16 (byteAt r 0) (byteAt r 1) + 4 then
        (if atEnd then ⟨g.length + 1, none, some .truncated⟩ else ⟨g.length, none, none⟩)
      else if byteAt r (be16 (byteAt r 0) (byteAt r 1) + 2) = cks ((r.drop 2).take (be16 (byteAt r 0) (byteAt r 1))) then
        ⟨g.length + (be16 (byteAt r 0) (byteAt r 1) + 4),
          some ((0x7E#8 :: r).take (be16 (byteAt r 0) (byteAt r 1) + 4)), none⟩
      else ⟨g.length + 1, none, some .badChecksum⟩) ∧
  (∀ (buf f : Bytes) (atEnd : Bool), (syncStepOp .hunt buf atEnd).frame = some f → ∃ p, decodeFrameOp f = .ok p) ∧
  (∀ buf : Bytes, ((syncStepOp .hunt buf false).frame = none ∧ (syncStepOp .hunt buf false).note = none) ↔
    (syncStepOp .literal buf false).frame = none)

/-- Progress of SYNC_STEP (41_synchronizer.md R144): when it consumes nothing and emits nothing, and that it consumes
otherwise; at the end of the stream, HUNT empties the buffer in at most its length of calls, and LITERAL stops with a
residue that is empty or begins with the delimiter of an incomplete candidate. -/
def Obligations.SynchronizerMakesProgress : Prop :=
  (∀ (mode : SyncMode) (buf : Bytes) (atEnd : Bool),
    ((syncStepOp mode buf atEnd).consumed = 0 ∧ (syncStepOp mode buf atEnd).frame = none) ↔
      buf = [] ∨ (buf.head? = some 0x7E#8 ∧ incompleteCandidate buf ∧ (mode = .hunt → atEnd = false))) ∧
  (∀ (mode : SyncMode) (buf : Bytes) (atEnd : Bool),
    ¬ (buf = [] ∨ (buf.head? = some 0x7E#8 ∧ incompleteCandidate buf ∧ (mode = .hunt → atEnd = false))) →
      1 ≤ (syncStepOp mode buf atEnd).consumed) ∧
  (∀ buf : Bytes, drainBuffer .hunt buf.length buf = []) ∧
  (∀ (buf r : Bytes), drainBuffer .literal buf.length buf = r →
    r = [] ∨ (r.head? = some 0x7E#8 ∧ incompleteCandidate r ∧ (syncStepOp .literal r true).consumed = 0))

/-- Chunk boundaries carry no meaning (20_memory.md R67, 41_synchronizer.md R143): a result that emits or rejects does
not change when more bytes follow, and a result that waits consumes only what the call on all the bytes consumes. -/
def Obligations.ChunkBoundariesDoNotMatter : Prop :=
  (∀ (mode : SyncMode) (buf ext : Bytes) (r : SyncResult), syncStepOp mode buf false = r →
    (r.frame ≠ none ∨ r.note ≠ none) → syncStepOp mode (buf ++ ext) false = r) ∧
  (∀ (mode : SyncMode) (buf ext : Bytes) (r r' : SyncResult), syncStepOp mode buf false = r →
    r.frame = none → r.note = none → syncStepOp mode (buf.drop r.consumed ++ ext) false = r' →
    syncStepOp mode (buf ++ ext) false = ⟨r.consumed + r'.consumed, r'.frame, r'.note⟩)

/-- A frame is found whole, whatever bytes it holds, when scanning starts at its delimiter (41_synchronizer.md
R152). -/
def Obligations.FramesAreFoundWhole : Prop :=
  ∀ (mode : SyncMode) (p f ext : Bytes) (atEnd : Bool), encodeFrameOp p = .ok f →
    syncStepOp mode (f ++ ext) atEnd = ⟨f.length, some f, none⟩

/-- Resynchronization in HUNT mode (41_synchronizer.md R151): a false delimiter whose candidate is rejected costs itself
and what precedes it, and the next call emits the frame behind it; at the end of the stream a candidate that is not
emitted is rejected. -/
def Obligations.HuntModeResynchronizes : Prop :=
  ∀ (g m p f ext : Bytes) (atEnd : Bool) (r : SyncResult), 0x7E#8 ∉ g → 0x7E#8 ∉ m → encodeFrameOp p = .ok f →
    syncStepOp .hunt (g ++ 0x7E#8 :: (m ++ f ++ ext)) atEnd = r → r.frame = none →
    (atEnd = true → r.note ≠ none) ∧
    (r.note ≠ none → r.consumed = g.length + 1 ∧
      syncStepOp .hunt ((g ++ 0x7E#8 :: (m ++ f ++ ext)).drop r.consumed) atEnd = ⟨m.length + f.length, some f, none⟩)

/-- SYNC_STEP as a host request (41_synchronizer.md R150): the triple of the configured mode, and no state written. -/
def Obligations.SyncStepRequestIsPure : Prop :=
  (∀ (buf : Bytes) (atEnd : Bool) (s : State),
    exec (.syncStep buf atEnd) s = .next (answered s (.ok (.sync (syncStepOp s.cfg.syncMode buf atEnd))))) ∧
  (∀ s : State, s.cfg.syncMode = .hunt →
    exec (.syncStep [0x41#8, 0x7E#8, 0x00#8] true) s =
      .next (answered s (.ok (.sync ⟨2, none, some .truncated⟩))))

/-! ## Tag pool -/

/-- ACQUIRE (42_tag_pool.md R170): the lowest free mark with a fresh ticket, or the error, and nothing else. -/
def Obligations.AcquireTakesTheLowestFreeMark : Prop :=
  ∀ s : State,
    (∀ r : Reason, s.sess.ended = some r → exec .acquire s = .next (answered s (.err (.transportClosed r)))) ∧
    (s.sess = .isOpen → allReserved s → exec .acquire s = .next (answered s (.err .noMarksAvailable))) ∧
    (∀ m : Mark, s.sess = .isOpen → lowestFree s m →
      ∃ u : State, exec .acquire s = .next u ∧
        u = { s with
          pool := u.pool
          slots := u.slots
          nextTicket := s.nextTicket + 1
          completions := s.completions ++ [(s.reqCaller, .ok (.acquired m s.nextTicket))] } ∧
        poolChanged s u m (some s.nextTicket) ∧ slotChanged s u s.nextTicket .waiting)

/-- The capacity laws (42_tag_pool.md R172): from a state with no reserved mark, 255 ACQUIREs return the marks in
increasing order and the 256th raises `NoMarksAvailable` and changes nothing; with exactly one mark free, one ACQUIRE
succeeds and returns it and the next one raises. -/
def Obligations.PoolCapacity : Prop :=
  (∀ s : State, s.sess = .isOpen → (∀ m : Mark, s.poolAt m = none) →
    (∀ n : Nat, n ≤ 255 → ∃ u : State, execTimes .acquire n s = .next u ∧
      u.completions = s.completions ++
        (List.range n).map (fun k => (s.reqCaller, .ok (.acquired (BitVec.ofNat 8 (k + 1)) (s.nextTicket + k)))) ∧
      ∀ m : Mark, u.poolAt m ≠ none ↔ m ≠ 0#8 ∧ m.toNat ≤ n) ∧
    (∃ u : State, execTimes .acquire 255 s = .next u ∧
      exec .acquire u = .next (answered u (.err .noMarksAvailable)))) ∧
  (∀ (s : State) (m : Mark), s.sess = .isOpen → m ≠ 0#8 → s.poolAt m = none →
    (∀ m' : Mark, m' ≠ 0#8 → m' ≠ m → s.poolAt m' ≠ none) →
    ∃ u : State, exec .acquire s = .next u ∧
      u.completions = s.completions ++ [(s.reqCaller, .ok (.acquired m s.nextTicket))] ∧
      exec .acquire u = .next (answered u (.err .noMarksAvailable)))

/-- RELEASE (42_tag_pool.md R173): the bytes go to the slot of the ticket that holds the mark and the mark is freed; a
mark that is not reserved, mark 0 among them, is an `UnknownMark` event and error. -/
def Obligations.ReleaseDeliversToTheHolder : Prop :=
  (∀ (s : State) (m : Mark) (resp : Bytes) (t : Ticket), s.poolAt m = some t →
    ∃ u : State, exec (.release m resp) s = .next u ∧
      u = { s with
        pool := u.pool
        slots := u.slots
        completions := s.completions ++ [(s.reqCaller, .ok .unit)] } ∧
      poolChanged s u m none ∧ slotChanged s u t (.done resp)) ∧
  (∀ (s : State) (m : Mark) (resp : Bytes), s.poolAt m = none →
    exec (.release m resp) s =
      .next (answered { s with diag := s.diag ++ [.unknownMark m] } (.err (.unknownMark m))))

/-- ABANDON (42_tag_pool.md R174): the mark is freed and its slot failed with an error of the given code only when the
given ticket holds it; otherwise nothing changes. The count of free values drawn is the model's own (assumption log
2). -/
def Obligations.AbandonFreesOnlyItsOwnAllocation : Prop :=
  (∀ (s : State) (m : Mark) (t : Ticket) (code : Byte), errorCodeOk code = true → s.poolAt m = some t →
    ∃ (u : State) (e : Err), exec (.abandon m t code) s = .next u ∧ e.code = code ∧
      u = { s with
        pool := u.pool
        slots := u.slots
        freeCount := s.freeCount + 1
        completions := s.completions ++ [(s.reqCaller, .ok .unit)] } ∧
      poolChanged s u m none ∧ slotChanged s u t (.failed e)) ∧
  (∀ (s : State) (m : Mark) (t : Ticket) (code : Byte), errorCodeOk code = true → s.poolAt m ≠ some t →
    exec (.abandon m t code) s = .next (answered s (.ok .unit)))

/-- AWAIT (42_tag_pool.md R175): an unused or retired slot is `InvalidRequest`; a result is taken and the slot retired;
while the slot is waiting the caller is held, its phases change nothing, and the result ends the hold. That a phase drawn
during the hold changes nothing is the model's reading (assumption log 8). -/
def Obligations.AwaitTakesTheResultOnce : Prop :=
  (∀ (s : State) (t : Ticket), s.slotAt t = .unused ∨ s.slotAt t = .retired →
    exec (.awaitSlot t) s = .next (answered s (.err .invalidRequest))) ∧
  (∀ (s : State) (t : Ticket), s.slotAt t = .waiting →
    ∃ u : State, exec (.awaitSlot t) s = .next u ∧ u = { s with calls := u.calls } ∧
      callChanged s u s.reqCaller (.awaiting t)) ∧
  (∀ (s : State) (t : Ticket) (v : SlotState) (x : Completion),
    ((∃ b, v = .done b ∧ x = .ok (.bytes b)) ∨ (∃ e, v = .failed e ∧ x = .err e)) → s.slotAt t = v →
    ∃ u : State, exec (.awaitSlot t) s = .next u ∧
      u = { s with slots := u.slots, completions := s.completions ++ [(s.reqCaller, x)] } ∧
      slotChanged s u t .retired) ∧
  (∀ (s : State) (c : CallerId) (t : Ticket) (rest : List Input),
    s.inputs = .phase c :: rest → s.callAt c = .awaiting t → s.slotAt t = .waiting →
    step s = .next { s with inputs := rest }) ∧
  (∀ (s : State) (c : CallerId) (t : Ticket) (rest : List Input) (v : SlotState) (x : Completion),
    ((∃ b, v = .done b ∧ x = .ok (.bytes b)) ∨ (∃ e, v = .failed e ∧ x = .err e)) →
    s.inputs = .phase c :: rest → s.callAt c = .awaiting t → s.slotAt t = v →
    ∃ u : State, step s = .next u ∧
      u = { s with
        inputs := rest
        slots := u.slots
        calls := u.calls
        completions := s.completions ++ [(c, x)] } ∧
      slotChanged s u t .retired ∧ callChanged s u c .idle)

/-- RELEASE, ABANDON and AWAIT are performed in every session state and only ACQUIRE requires it open (42_tag_pool.md
R179): the session status neither changes what the three do nor is changed by them. -/
def Obligations.PoolRequestsRunInEverySession : Prop :=
  (∀ (i : Instr) (s u : State) (x : SessionStatus),
    ((∃ m resp, i = .release m resp) ∨ (∃ m t code, i = .abandon m t code) ∨ (∃ t, i = .awaitSlot t)) →
    exec i s = .next u → exec i { s with sess := x } = .next { u with sess := x }) ∧
  (∀ (s : State) (r : Reason), s.sess = .closing r ∨ s.sess = .closed r →
    exec .acquire s = .next (answered s (.err (.transportClosed r))))

/-! ## Command encoders and decoders -/

/-- The command encoders (43_command_encoder.md R200, R202, R204): the bytes of each payload; no state is written and no
error raised. -/
def Obligations.CommandEncodersBuildTheirPayloads : Prop :=
  (∀ (mn : Mnemonic) (param : Option Bytes) (mark : Mark) (queued : Bool) (s : State),
    exec (.encodeAt mn param mark queued) s = .next (answered s (.ok (.bytes
      ([if queued then 0x09#8 else 0x08#8, mark, mn.c0, mn.c1] ++ param.getD []))))) ∧
  (∀ (mn : Mnemonic) (param : Option Bytes) (mark : Mark) (dest : Addr64) (options : Byte) (s : State),
    exec (.encodeRemoteAt mn param mark dest options) s = .next (answered s (.ok (.bytes
      ([0x17#8, mark] ++ be64Digits dest ++ [0xFF#8, 0xFE#8, options, mn.c0, mn.c1] ++ param.getD []))))) ∧
  (∀ (mark : Mark) (dest : Addr64) (radius options : Byte) (data : Bytes) (s : State),
    exec (.encodeTx mark dest radius options data) s = .next (answered s (.ok (.bytes
      ([0x10#8, mark] ++ be64Digits dest ++ [0xFF#8, 0xFE#8, radius, options] ++ data)))))

/-- The length limits of the encoders (43_command_encoder.md R205): above them ENCODE_FRAME raises `FrameTooLarge`, and
the session requests raise `PayloadTooLarge` before they acquire a mark. -/
def Obligations.EncoderLengthLimits : Prop :=
  (∀ (mn : Mnemonic) (b : Bytes) (mark : Mark) (queued : Bool),
    (∃ n, encodeFrameOp (encodeAtOp mn (some b) mark queued) = .error (.frameTooLarge n)) ↔ 65531 < b.length) ∧
  (∀ (mn : Mnemonic) (b : Bytes) (mark : Mark) (dest : Addr64) (options : Byte),
    (∃ n, encodeFrameOp (encodeRemoteAtOp mn (some b) mark dest options) = .error (.frameTooLarge n)) ↔
      65520 < b.length) ∧
  (∀ (mark : Mark) (dest : Addr64) (radius options : Byte) (data : Bytes),
    (∃ n, encodeFrameOp (encodeTxOp mark dest radius options data) = .error (.frameTooLarge n)) ↔
      65521 < data.length) ∧
  (∀ (s : State) (data : Bytes), s.sess = .isOpen → 65521 < data.length →
    exec (.write data) s = .next (answered s (.err (.payloadTooLarge data.length)))) ∧
  (∀ (s : State) (mn : Mnemonic) (b : Bytes) (queued : Bool), s.sess = .isOpen → 65531 < b.length →
    exec (.atCommand mn (some b) queued) s = .next (answered s (.err (.payloadTooLarge b.length)))) ∧
  (∀ (s : State) (dest : Addr64) (options : Byte) (mn : Mnemonic) (b : Bytes), s.sess = .isOpen → 65520 < b.length →
    exec (.remoteAtCommand dest options mn (some b)) s = .next (answered s (.err (.payloadTooLarge b.length))))

/-- DECODE_AT_RESP (44_decoders.md R220, R221; the classes of 30_encoding.md R93). -/
def Obligations.AtResponseDecoder : Prop :=
  ∀ (p : Bytes) (s : State), exec (.decodeAtResp p) s = .next (answered s
    (if p.length < 5 then .err (.decodeShort p.length)
     else .ok (.atResp {
       mark := byteAt p 1
       mnemonic := ⟨byteAt p 2, byteAt p 3⟩
       statusCode := byteAt p 4
       status := if byteAt p 4 = 0x00#8 then .ok else if byteAt p 4 = 0x02#8 then .invalidCommand
         else if byteAt p 4 = 0x03#8 then .invalidParam else .error
       data := p.drop 5 })))

/-- DECODE_REMOTE_AT_RESP (44_decoders.md R222). -/
def Obligations.RemoteResponseDecoder : Prop :=
  ∀ (p : Bytes) (s : State), exec (.decodeRemoteAtResp p) s = .next (answered s
    (if p.head? ≠ some 0x97#8 then .err .decodeWrongType
     else if p.length < 15 then .err (.decodeShort p.length)
     else .ok (.remoteAtResp {
       mark := byteAt p 1
       source := BitVec.ofNat 64 (be64Sum p 2)
       src16 := BitVec.ofNat 16 ((byteAt p 10).toNat * 256 + (byteAt p 11).toNat)
       mnemonic := ⟨byteAt p 12, byteAt p 13⟩
       statusCode := byteAt p 14
       status := if byteAt p 14 = 0x00#8 then .ok else if byteAt p 14 = 0x02#8 then .invalidCommand
         else if byteAt p 14 = 0x03#8 then .invalidParam else .error
       data := p.drop 15 })))

/-- DECODE_RX (44_decoders.md R224). -/
def Obligations.RxIndicatorDecoder : Prop :=
  ∀ (p : Bytes) (s : State), exec (.decodeRx p) s = .next (answered s
    (if p.head? ≠ some 0x90#8 then .err .decodeWrongType
     else if p.length < 12 then .err (.decodeShort p.length)
     else .ok (.rx {
       source := BitVec.ofNat 64 (be64Sum p 1)
       src16 := BitVec.ofNat 16 ((byteAt p 9).toNat * 256 + (byteAt p 10).toNat)
       ack := decide ((byteAt p 11).toNat % 2 = 1)
       broadcast := decide ((byteAt p 11).toNat / 2 % 2 = 1)
       options := byteAt p 11
       payload := p.drop 12 })))

/-- DECODE_TX_STATUS (44_decoders.md R226; the classes of 30_encoding.md R94 and the routed flag of R95). -/
def Obligations.TxStatusDecoder : Prop :=
  ∀ (p : Bytes) (s : State), exec (.decodeTxStatus p) s = .next (answered s
    (if p.head? ≠ some 0x8B#8 then .err .decodeWrongType
     else if p.length ≠ 7 then .err (.decodeWrongLength p.length)
     else .ok (.txStatus {
       mark := byteAt p 1
       dest16 := BitVec.ofNat 16 ((byteAt p 2).toNat * 256 + (byteAt p 3).toNat)
       retryCount := byteAt p 4
       statusCode := byteAt p 5
       status := if byteAt p 5 = 0x00#8 then .success else if byteAt p 5 = 0x01#8 then .noACK
         else if byteAt p 5 = 0x02#8 then .ccaFailure else .purgedOrOther
       routed := decide (byteAt p 6 ≠ 0x00#8) })))

/-- The decoder laws (44_decoders.md R227): an AT Command Response built from a mark, a mnemonic, a status and data
decodes to them, and no decoder raises anything but its three errors. -/
def Obligations.DecoderLaws : Prop :=
  (∀ (mark : Mark) (mn : Mnemonic) (st : Byte) (d : Bytes) (s : State),
    exec (.decodeAtResp ([0x88#8, mark] ++ mn.bytes ++ [st] ++ d)) s = .next (answered s
      (.ok (.atResp { mark := mark, mnemonic := mn, statusCode := st, status := atClass st, data := d })))) ∧
  (∀ (p : Bytes) (e : Err),
    (decodeAtRespOp p = .error e ∨ decodeRemoteAtRespOp p = .error e ∨ decodeRxOp p = .error e ∨
      decodeTxStatusOp p = .error e) →
    e = .decodeWrongType ∨ (∃ n, e = .decodeShort n) ∨ (∃ n, e = .decodeWrongLength n))

/-! ## Router and frames -/

/-- A received instruction does what the router does with its payload (45_router.md R250): one arm for each payload. -/
def Obligations.RouterAgreesWithTheFrames : Prop :=
  ∀ (p : Bytes) (i : Instr) (s : State), decode .received p = .ok i → exec i s = .next (dispatchPayload p s)

/-- The response arms (45_router.md R252 to R254, R256): a received AT Command Response, TX Status or Remote Command
Response frees its mark and leaves its raw payload in the slot of the mark's holder; with the mark not reserved it is an
event and nothing else. A payload of one of the three types that its decoder refuses is dropped with that error as an
event and nothing else (R257), so no mark is freed and its waiter stays held. -/
def Obligations.ResponseFramesReleaseTheirMark : Prop :=
  (∀ (i : Instr) (m : Mark),
    ((∃ mn st d, i = .atCommandResponseFrame m mn st d) ∨
     (∃ d16 retry del disc, i = .txStatusFrame m d16 retry del disc) ∨
     (∃ a a16 mn st d, i = .remoteCommandResponseFrame m a a16 mn st d)) →
    ∀ s : State,
      (∀ t : Ticket, s.poolAt m = some t → ∃ u : State, exec i s = .next u ∧
        u = { s with pool := u.pool, slots := u.slots } ∧
        poolChanged s u m none ∧ slotChanged s u t (.done (encode i).2)) ∧
      (s.poolAt m = none → exec i s = .next { s with diag := s.diag ++ [.unknownMark m] })) ∧
  (∀ (p : Bytes) (s : State), p.head? = some 0x88#8 → p.length < 5 →
    dispatchPayload p s = { s with diag := s.diag ++ [.decodeFailed 0x88#8 (.decodeShort p.length)] }) ∧
  (∀ (p : Bytes) (s : State), p.head? = some 0x8B#8 → p.length ≠ 7 →
    dispatchPayload p s = { s with diag := s.diag ++ [.decodeFailed 0x8B#8 (.decodeWrongLength p.length)] }) ∧
  (∀ (p : Bytes) (s : State), p.head? = some 0x97#8 → p.length < 15 →
    dispatchPayload p s = { s with diag := s.diag ++ [.decodeFailed 0x97#8 (.decodeShort p.length)] })

/-- The RX Indicator arm (45_router.md R251): the data bytes are appended to `RDBUF`, or dropped whole when they do not
fit its capacity; a payload shorter than the header is dropped with an event. -/
def Obligations.RxIndicatorFillsTheReadBuffer : Prop :=
  (∀ (a : Addr64) (a16 : Half) (options : Byte) (d : Bytes) (s : State), s.cfg.rdbufCap = none →
    exec (.rxIndicatorFrame a a16 options d) s = .next { s with rdbuf := s.rdbuf ++ d }) ∧
  (∀ (a : Addr64) (a16 : Half) (options : Byte) (d : Bytes) (s : State) (n : Nat), s.cfg.rdbufCap = some n →
    exec (.rxIndicatorFrame a a16 options d) s = .next
      (if n < s.rdbuf.length + d.length then { s with diag := s.diag ++ [.rxOverflow d.length] }
       else { s with rdbuf := s.rdbuf ++ d })) ∧
  (∀ (p : Bytes) (s : State), p.head? = some 0x90#8 → p.length < 12 →
    dispatchPayload p s = { s with diag := s.diag ++ [.decodeFailed 0x90#8 (.decodeShort p.length)] })

/-- The unrecognized arm (45_router.md R255): a payload of any other type, the four produced types and the empty payload
among them, changes nothing but `DIAG`; so does each of the four produced frames when it is received. -/
def Obligations.UnrecognizedPayloadsAreDropped : Prop :=
  (∀ (p : Bytes) (s : State), p.head? ≠ some 0x88#8 → p.head? ≠ some 0x8B#8 → p.head? ≠ some 0x90#8 →
    p.head? ≠ some 0x97#8 → dispatchPayload p s = { s with diag := s.diag ++ [.unknownType p.head?] }) ∧
  (∀ (m : Mark) (mn : Mnemonic) (b : Bytes) (s : State),
    exec (.atCommandFrame .received m mn b) s = .next { s with diag := s.diag ++ [.unknownType (some 0x08#8)] } ∧
    exec (.queuedAtCommandFrame .received m mn b) s =
      .next { s with diag := s.diag ++ [.unknownType (some 0x09#8)] }) ∧
  (∀ (m : Mark) (a : Addr64) (a16 : Half) (r o : Byte) (mn : Mnemonic) (b : Bytes) (s : State),
    exec (.txRequestFrame .received m a a16 r o b) s =
      .next { s with diag := s.diag ++ [.unknownType (some 0x10#8)] } ∧
    exec (.remoteAtCommandFrame .received m a a16 o mn b) s =
      .next { s with diag := s.diag ++ [.unknownType (some 0x17#8)] })

/-- The SEND phase of each session call (46_session.md R270, R275, R280): the frame of the call's type is queued whole,
tagged with its ticket, while the session is open, and the call goes on to WAIT; with the session not open nothing is
queued. That the frame is an instruction which the SEND phase runs is the model's form (assumption log 5). -/
def Obligations.SentFramesAreQueued : Prop :=
  ∀ (s : State) (i : Instr) (op : Call) (m : Mark) (t : Ticket),
    ((∃ mn param, i = .atCommandFrame .sent m mn (param.getD []) ∧ op = .atCommand mn param false) ∨
     (∃ mn param, i = .queuedAtCommandFrame .sent m mn (param.getD []) ∧ op = .atCommand mn param true) ∨
     (∃ data, i = .txRequestFrame .sent m s.cfg.dest64 0xFFFE#16 s.cfg.txRadius s.cfg.txOptions data ∧
       op = .write data) ∨
     (∃ dest options mn param, i = .remoteAtCommandFrame .sent m dest 0xFFFE#16 options mn (param.getD []) ∧
       op = .remoteAtCommand dest options mn param)) →
    s.callAt s.reqCaller = .session .send op m t →
    (∀ f : Bytes, s.sess = .isOpen → encodeFrameOp (encode i).2 = .ok f →
      ∃ u : State, exec i s = .next u ∧ u = { s with txq := s.txq ++ [(t, f)], calls := u.calls } ∧
        callChanged s u s.reqCaller (.session .wait op m t)) ∧
    (s.sess ≠ .isOpen →
      ∃ u : State, exec i s = .next u ∧ u = { s with calls := u.calls } ∧
        callChanged s u s.reqCaller (.session .wait op m t))

/-! ## Session -/

/-- START of WRITE, AT_COMMAND and REMOTE_AT_COMMAND (46_session.md R270, R275, R280, in the order of R314): the session
status, then the operand size, then mark exhaustion; otherwise the lowest free mark is acquired and the call goes on to
SEND. -/
def Obligations.SessionCallsStart : Prop :=
  ∀ (i : Instr) (op : Call) (size limit : Nat),
    ((∃ data, i = .write data ∧ op = .write data ∧ size = data.length ∧ limit = 65521) ∨
     (∃ mn param queued, i = .atCommand mn param queued ∧ op = .atCommand mn param queued ∧
       size = (param.getD []).length ∧ limit = 65531) ∨
     (∃ dest options mn param, i = .remoteAtCommand dest options mn param ∧
       op = .remoteAtCommand dest options mn param ∧ size = (param.getD []).length ∧ limit = 65520)) →
    ∀ s : State,
      (∀ r : Reason, s.sess.ended = some r → exec i s = .next (answered s (.err (.transportClosed r)))) ∧
      (s.sess = .isOpen → limit < size → exec i s = .next (answered s (.err (.payloadTooLarge size)))) ∧
      (s.sess = .isOpen → size ≤ limit → allReserved s → exec i s = .next (answered s (.err .noMarksAvailable))) ∧
      (∀ m : Mark, s.sess = .isOpen → size ≤ limit → lowestFree s m →
        ∃ u : State, exec i s = .next u ∧
          u = { s with pool := u.pool, slots := u.slots, nextTicket := s.nextTicket + 1, calls := u.calls } ∧
          poolChanged s u m (some s.nextTicket) ∧ slotChanged s u s.nextTicket .waiting ∧
          callChanged s u s.reqCaller (.session .send op m s.nextTicket))

/-- The WAIT phase (46_session.md R270, R275, R280): held while the slot is waiting; a response or an error that has
come in is taken, the slot is retired and the call completes. That a phase drawn during the hold changes nothing is the
model's reading (assumption log 8). -/
def Obligations.SessionCallsFinish : Prop :=
  ∀ (s : State) (c : CallerId) (rest : List Input) (op : Call) (m : Mark) (t : Ticket),
    s.inputs = .phase c :: rest → s.callAt c = .session .wait op m t →
    (s.slotAt t = .waiting → step s = .next { s with inputs := rest }) ∧
    (∀ (v : SlotState) (x : Except Err Bytes),
      ((∃ b, v = .done b ∧ x = .ok b) ∨ (∃ e, v = .failed e ∧ x = .error e)) → s.slotAt t = v → s.poolAt m ≠ some t →
      ∃ u : State, step s = .next u ∧
        u = { s with
          inputs := rest
          slots := u.slots
          calls := u.calls
          completions := s.completions ++ [(c, finishCall op x)] } ∧
        slotChanged s u t .retired ∧ callChanged s u c .idle)

/-- The completion checks FINISH_WRITE, FINISH_AT and FINISH_REMOTE_AT (46_session.md R272, R277, R282). -/
def Obligations.CompletionChecks : Prop :=
  (∀ (data r : Bytes), finishCall (.write data) (.ok r) =
    if r.head? ≠ some 0x8B#8 then .err (.responseTypeMismatch r.head?)
    else if r.length ≠ 7 then .err (.decodeWrongLength r.length)
    else if byteAt r 5 ≠ 0x00#8 then .err (.deliveryFailed (byteAt r 5) (txClass (byteAt r 5)))
    else .ok (.count data.length)) ∧
  (∀ (mn : Mnemonic) (param : Option Bytes) (queued : Bool) (r : Bytes),
    finishCall (.atCommand mn param queued) (.ok r) =
    if r.head? ≠ some 0x88#8 then .err (.responseTypeMismatch r.head?)
    else if r.length < 5 then .err (.decodeShort r.length)
    else if byteAt r 4 = 0x00#8 then .ok (.bytes (r.drop 5))
    else .err (.remoteRejected (byteAt r 4) (atClass (byteAt r 4)))) ∧
  (∀ (dest : Addr64) (options : Byte) (mn : Mnemonic) (param : Option Bytes) (r : Bytes),
    finishCall (.remoteAtCommand dest options mn param) (.ok r) =
    if r.head? ≠ some 0x97#8 then .err (.responseTypeMismatch r.head?)
    else if r.length < 15 then .err (.decodeShort r.length)
    else if byteAt r 14 = 0x00#8 then .ok (.bytes (r.drop 15))
    else .err (.remoteRejected (byteAt r 14) (atClass (byteAt r 14)))) ∧
  (∀ (op : Call) (e : Err), finishCall op (.error e) = .err e)

/-- A call that completes holds no mark (46_session.md R298): in a state that meets the pool invariants, when the WAIT
phase ends the call no mark holds its ticket, and the final ABANDON has changed nothing of the pool. -/
def Obligations.FinishedCallsHoldNoMark : Prop :=
  ∀ (s u : State) (c : CallerId) (rest : List Input) (op : Call) (m : Mark) (t : Ticket), PoolInv s →
    s.inputs = .phase c :: rest → s.callAt c = .session .wait op m t → step s = .next u → u.callAt c = .idle →
    u.pool = s.pool ∧ ∀ m' : Mark, u.poolAt m' ≠ some t

/-- READ (46_session.md R285 to R287): no bytes for `nmax = 0`; else the first bytes of `RDBUF`, also after the session
has ended; the error once `RDBUF` is empty and the session closed; held otherwise, until one of the two. That a READ with
nothing to wait for completes in its first step, and that a phase drawn during the hold changes nothing, are the model's
readings (assumption logs 7 and 8). -/
def Obligations.ReadTakesFromTheFront : Prop :=
  (∀ s : State, exec (.read 0) s = .next (answered s (.ok (.bytes [])))) ∧
  (∀ (s : State) (n : Nat), n ≠ 0 → s.rdbuf ≠ [] →
    exec (.read n) s = .next (answered { s with rdbuf := s.rdbuf.drop n } (.ok (.bytes (s.rdbuf.take n))))) ∧
  (∀ (s : State) (n : Nat) (r : Reason), n ≠ 0 → s.rdbuf = [] → s.sess = .closed r →
    exec (.read n) s = .next (answered s (.err (.transportClosed r)))) ∧
  (∀ (s : State) (n : Nat), n ≠ 0 → s.rdbuf = [] → isClosed s.sess = false →
    ∃ u : State, exec (.read n) s = .next u ∧ u = { s with calls := u.calls } ∧
      callChanged s u s.reqCaller (.reading n)) ∧
  (∀ (s : State) (c : CallerId) (rest : List Input) (n : Nat), s.inputs = .phase c :: rest → s.callAt c = .reading n →
    s.rdbuf = [] → isClosed s.sess = false → step s = .next { s with inputs := rest }) ∧
  (∀ (s : State) (c : CallerId) (rest : List Input) (n : Nat) (x : Completion), s.inputs = .phase c :: rest →
    s.callAt c = .reading n →
    ((s.rdbuf ≠ [] ∧ x = .ok (.bytes (s.rdbuf.take n))) ∨
      (∃ r, s.rdbuf = [] ∧ s.sess = .closed r ∧ x = .err (.transportClosed r))) →
    ∃ u : State, step s = .next u ∧
      u = { s with
        inputs := rest
        rdbuf := s.rdbuf.drop n
        calls := u.calls
        completions := s.completions ++ [(c, x)] } ∧
      callChanged s u c .idle)

/-- CLOSE (46_session.md R292): the entry into the fatal path with reason `LocalClose`, at once completed; an error once
the session has ended. -/
def Obligations.CloseEntersTheFatalPath : Prop :=
  (∀ s : State, s.sess = .isOpen →
    exec .close s = .next (answered { s with
      sess := .closing .localClose
      closeCtl := true
      diag := s.diag ++ [.transportEnded .localClose] } (.ok .unit))) ∧
  (∀ (s : State) (r : Reason), s.sess = .closing r ∨ s.sess = .closed r →
    exec .close s = .next (answered s (.err (.transportClosed r))))

/-! ## Engines and environment -/

/-- INGEST (41_synchronizer.md R145): while the session is open a chunk is appended to `SYNCBUF` and nothing else
changes; once it is not open no chunk is taken. That an untaken chunk leaves the state alone is the model's reading of a
step that is not enabled (assumption log 8). -/
def Obligations.IngestAppendsTheChunk : Prop :=
  ∀ (s : State) (ch : Bytes) (rest : List Input), s.inputs = .chunk ch :: rest →
    (s.sess = .isOpen → step s = .next { s with inputs := rest, syncbuf := s.syncbuf ++ ch }) ∧
    (s.sess ≠ .isOpen → step s = .next { s with inputs := rest })

/-- SCAN (41_synchronizer.md R146): not taken unless it is enabled; noise and a false start are reported, `SYNCBUF` is
shortened, and a frame is decoded and dispatched or reported as bad. That a SCAN drawn while it is not enabled changes
nothing is the model's reading (assumption log 8). -/
def Obligations.ScanDispatchesTheFrame : Prop :=
  ∀ (s s1 : State) (rest : List Input) (r : SyncResult), s.inputs = .scan :: rest →
    syncStepOp s.cfg.syncMode s.syncbuf s.sess.atEnd = r →
    s1 = { s with
      inputs := rest
      syncbuf := s.syncbuf.drop r.consumed
      diag := s.diag ++
        (if 0 < r.consumed - (r.frame.getD []).length then [.noiseDiscarded (r.consumed - (r.frame.getD []).length)]
         else []) ++ (r.note.map Event.falseStart).toList } →
    (isClosed s.sess = true ∨ (r.consumed = 0 ∧ r.frame = none) → step s = .next { s with inputs := rest }) ∧
    (isClosed s.sess = false → 0 < r.consumed → r.frame = none → step s = .next s1) ∧
    (∀ (g : Bytes) (e : Err), isClosed s.sess = false → r.frame = some g → decodeFrameOp g = .error e →
      step s = .next { s1 with diag := s1.diag ++ [.badFrame e] }) ∧
    (∀ (g p : Bytes), isClosed s.sess = false → r.frame = some g → decodeFrameOp g = .ok p →
      step s = .next (dispatchPayload p s1))

/-- FINALIZE (41_synchronizer.md R148, 42_tag_pool.md R176): enabled in `CLOSING(r)` when no SCAN is; what is left in
`SYNCBUF` and `TXQ` is reported and discarded, every reserved mark is freed and its slot failed with
`TransportClosed(r)`, and the session is closed. That a FINALIZE drawn while it is not enabled changes nothing is the
model's reading (assumption log 8). -/
def Obligations.FinalizeEndsTheSession : Prop :=
  ∀ (s : State) (rest : List Input), s.inputs = .finalize :: rest →
    ((∀ r, s.sess ≠ .closing r) → step s = .next { s with inputs := rest }) ∧
    (0 < (syncStepOp s.cfg.syncMode s.syncbuf s.sess.atEnd).consumed ∨
      (syncStepOp s.cfg.syncMode s.syncbuf s.sess.atEnd).frame ≠ none → step s = .next { s with inputs := rest }) ∧
    (∀ r : Reason, s.sess = .closing r → (syncStepOp s.cfg.syncMode s.syncbuf s.sess.atEnd).consumed = 0 →
      (syncStepOp s.cfg.syncMode s.syncbuf s.sess.atEnd).frame = none →
      ∃ u : State, step s = .next u ∧
        u = { s with
          inputs := rest
          sess := .closed r
          syncbuf := []
          txq := []
          diag := s.diag ++ (if 0 < s.syncbuf.length then [.noiseDiscarded s.syncbuf.length] else []) ++
            (if 0 < s.txq.length then [.txDiscarded s.txq.length] else [])
          pool := u.pool
          slots := u.slots } ∧
        (∀ m : Mark, m ≠ 0#8 → u.poolAt m = none) ∧ u.poolAt 0#8 = s.poolAt 0#8 ∧
        (∀ t : Ticket, (∃ m : Mark, m ≠ 0#8 ∧ s.poolAt m = some t) → u.slotAt t = .failed (.transportClosed r)) ∧
        (∀ t : Ticket, (∀ m : Mark, m ≠ 0#8 → s.poolAt m ≠ some t) → u.slotAt t = s.slotAt t))

/-- TX_SEND (46_session.md R290): the head of `TXQ` goes out whole, or the write fails with a proper part of it on the
wire and the session ends with `WriteError`; not taken unless the session is open and `TXQ` is not empty. That such a
step changes nothing is the model's reading (assumption log 8). -/
def Obligations.TransmitWritesWholeFrames : Prop :=
  ∀ (s : State) (o : WriteOutcome) (rest : List Input), s.inputs = .txSend o :: rest →
    (s.sess ≠ .isOpen ∨ s.txq = [] → step s = .next { s with inputs := rest }) ∧
    (∀ (t : Ticket) (f : Bytes) (q : List (Ticket × Bytes)), s.sess = .isOpen → s.txq = (t, f) :: q → o = .ok →
      step s = .next { s with inputs := rest, txq := q, wireOut := s.wireOut ++ f }) ∧
    (∀ (t : Ticket) (f : Bytes) (q : List (Ticket × Bytes)) (j : Nat), s.sess = .isOpen → s.txq = (t, f) :: q →
      o = .fail j → j < f.length →
      step s = .next { s with
        inputs := rest
        txq := q
        wireOut := s.wireOut ++ f.take j
        diag := s.diag ++ [.transportEnded .writeError]
        sess := .closing .writeError
        closeCtl := true })

/-- RX_END (46_session.md R293): the entry into the fatal path with the reason the transport reports; not taken once the
session is not open, which the model reads as changing nothing (assumption log 8). -/
def Obligations.RxEndEntersTheFatalPath : Prop :=
  ∀ (s : State) (r : RxEndReason) (rest : List Input), s.inputs = .rxEnd r :: rest →
    (s.sess = .isOpen → step s = .next { s with
      inputs := rest
      sess := .closing (match r with | .readEOF => .readEOF | .readError => .readError)
      closeCtl := true
      diag := s.diag ++ [.transportEnded (match r with | .readEOF => .readEOF | .readError => .readError)] }) ∧
    (s.sess ≠ .isOpen → step s = .next { s with inputs := rest })

/-- TIMEOUT (46_session.md R296): enabled for a call in WAIT whose slot is waiting, it removes the call's frame from
`TXQ` and abandons its allocation with `Timeout`; disabled by `TIMEOUT_ENABLED = false`, and for any other caller it is
not taken, which the model reads as changing nothing (assumption log 8). -/
def Obligations.TimeoutAbandonsTheCall : Prop :=
  ∀ (s : State) (c : CallerId) (rest : List Input), s.inputs = .timeout c :: rest →
    (s.cfg.timeoutEnabled = false ∨ (∀ op m t, s.callAt c = .session .wait op m t → s.slotAt t ≠ .waiting) →
      step s = .next { s with inputs := rest }) ∧
    (∀ (op : Call) (m : Mark) (t : Ticket), s.cfg.timeoutEnabled = true → s.callAt c = .session .wait op m t →
      s.slotAt t = .waiting → s.poolAt m = some t →
      ∃ u : State, step s = .next u ∧
        u = { s with
          inputs := rest
          txq := s.txq.filter (fun e => e.1 != t)
          pool := u.pool
          slots := u.slots } ∧
        poolChanged s u m none ∧ slotChanged s u t (.failed .timeout))

/-! ## Reset -/

/-- The state after reset with the default configuration inputs (10_state.md R38): every field of R20, and the defaults
of R21 that the spec gives. -/
def Obligations.ResetValues : Prop :=
  State.reset.sess = .isOpen ∧ State.reset.syncbuf = [] ∧ State.reset.txq = [] ∧ State.reset.wireOut = [] ∧
  (∀ m : Mark, State.reset.poolAt m = none) ∧ State.reset.nextTicket = 0 ∧
  (∀ t : Ticket, State.reset.slotAt t = .unused) ∧ State.reset.rdbuf = [] ∧ State.reset.diag = [] ∧
  (∀ c : CallerId, State.reset.callAt c = .idle) ∧
  State.reset.cfg.syncMode = .hunt ∧ State.reset.cfg.timeoutEnabled = true ∧
  State.reset.cfg.dest64 = 0x000000000000FFFF#64 ∧ State.reset.cfg.txRadius = 0x00#8 ∧
  State.reset.cfg.txOptions = 0x00#8 ∧ State.reset.cfg.rdbufCap = none

/-- The reset step in any state (70_reset_and_hazards.md R340): every field of R20 takes its reset value of R38, and the
configuration inputs are sampled. -/
def Obligations.ResetStepStartsAFreshSession : Prop :=
  ∀ (s : State) (cfg : Cfg) (rest : List Input), s.inputs = .reset cfg :: rest → cfg.valid = true →
    ∃ u : State, step s = .next u ∧
      u.sess = .isOpen ∧ u.syncbuf = [] ∧ u.txq = [] ∧ u.wireOut = [] ∧ (∀ m : Mark, u.poolAt m = none) ∧
      u.nextTicket = 0 ∧ (∀ t : Ticket, u.slotAt t = .unused) ∧ u.rdbuf = [] ∧ u.diag = [] ∧
      (∀ c : CallerId, u.callAt c = .idle) ∧ u.cfg = cfg

/-! ## Invariants and whole-machine rules -/

/-- The state after reset meets every invariant stated here. Some clauses are the model's choice, not the spec's: that
the close control is not asserted at reset, in `SessionInv` (assumption log 9), that `TIMEOUT_TICKS` has a positive value,
in `FormInv` (assumption log 1), and the canonical form of the tables, in `FormInv` (assumption log 10). -/
def Obligations.ResetMeetsTheInvariants : Prop :=
  PoolInv State.reset ∧ QueueInv State.reset ∧ SizeInv State.reset ∧ HoldInv State.reset ∧ SessionInv State.reset ∧
  FormInv State.reset

/-- Every step keeps the pool invariants (10_state.md R36 (a) to (e), with R31's reading of an unused slot). -/
def Obligations.StepKeepsThePoolInvariants : Prop :=
  ∀ s u : State, PoolInv s → step s = .next u → PoolInv u

/-- Every step keeps the session invariants: what a closed session is (41_synchronizer.md R148, 42_tag_pool.md R176),
whole frames in `TXQ` (10_state.md R27), the sizes and marks of the calls (46_session.md R270, R275, R280, 42_tag_pool.md
R170), and the size of `RDBUF` (45_router.md R251); and with the pool invariants, that a call whose slot is waiting holds
its mark in the pool (46_session.md R298), which is the premise of the statement on TIMEOUT. Two clauses are the model's
choice, not the spec's: that the close control is a level, asserted exactly while the session is not open (60_exceptions.md
R316 gives only its assertion at entry; assumption log 9), and the canonical form of the tables (assumption log 10). -/
def Obligations.StepKeepsTheSessionInvariants : Prop :=
  (∀ s u : State, SessionInv s → QueueInv s → SizeInv s → FormInv s → step s = .next u →
    SessionInv u ∧ QueueInv u ∧ SizeInv u ∧ FormInv u) ∧
  (∀ s u : State, PoolInv s → HoldInv s → step s = .next u → HoldInv u)

/-- A slot moves only forward (10_state.md R31, 42_tag_pool.md R177): in a step other than reset, from a state that
meets the pool invariants, each slot stays as it is or makes one move, so it leaves `Waiting` exactly once and a result
is taken exactly once. -/
def Obligations.SlotsMoveOnlyForward : Prop :=
  ∀ (s u : State) (t : Ticket), PoolInv s → takesReset s = false → step s = .next u →
    u.slotAt t = s.slotAt t ∨ slotMoves (s.slotAt t) (u.slotAt t)

/-- The session status moves only from `OPEN` to `CLOSING` to `CLOSED` and keeps its first reason (10_state.md R22,
60_exceptions.md R317): in any step other than reset it stays as it is or makes one of the two moves. -/
def Obligations.SessionNeverReopens : Prop :=
  ∀ s u : State, takesReset s = false → step s = .next u → u.sess = s.sess ∨ sessMoves s.sess u.sess

/-- Who writes `SESS`, the block's only flag (10_state.md R23): of the instructions only CLOSE, and of the steps only
TX_SEND, RX_END, FINALIZE, a CLOSE request and reset. That the close control is a level which the other instructions
leave alone is the model's choice (assumption log 9). -/
def Obligations.OnlyTheNamedStepsWriteTheStatus : Prop :=
  (∀ (i : Instr) (s u : State), i ≠ .close → exec i s = .next u → u.sess = s.sess ∧ u.closeCtl = s.closeCtl) ∧
  (∀ s u : State, step s = .next u → u.sess ≠ s.sess →
    ∃ rest, (∃ j, s.inputs = .txSend (.fail j) :: rest) ∨ (∃ r, s.inputs = .rxEnd r :: rest) ∨
      s.inputs = .finalize :: rest ∨ (∃ cfg, s.inputs = .reset cfg :: rest) ∨
      (∃ c bytes, s.inputs = .request c bytes :: rest ∧ decode .hostRequest bytes = .ok .close))

/-- The records only grow and the configuration is constant (10_state.md R21, R28, R30, R33; 20_memory.md R68): in any
step other than reset, bytes are only appended to `WIRE_OUT`, and they are nothing, the whole frame at the head of `TXQ`
or, when the session ends with it, a part of that frame; events and completions are only appended; the ticket counter
grows by at most one. The list of presented completions is the model's record of the port (assumption log 9). -/
def Obligations.RecordsOnlyGrow : Prop :=
  ∀ s u : State, takesReset s = false → step s = .next u →
    u.cfg = s.cfg ∧ (∃ d, u.diag = s.diag ++ d) ∧ (∃ x, u.completions = s.completions ++ x) ∧
    (u.nextTicket = s.nextTicket ∨ u.nextTicket = s.nextTicket + 1) ∧
    (u.wireOut = s.wireOut ∨
      ∃ t f q, s.txq = (t, f) :: q ∧ u.txq = q ∧
        (u.wireOut = s.wireOut ++ f ∨ (u.sess = .closing .writeError ∧ ∃ j, u.wireOut = s.wireOut ++ f.take j)))

/-- The read buffer is a byte stream (20_memory.md R71): in any step other than reset, bytes are appended at its tail or
taken from its front, and those taken are the bytes of the one completion of that step. -/
def Obligations.ReadBufferIsAStream : Prop :=
  ∀ s u : State, takesReset s = false → step s = .next u →
    (∃ d, u.rdbuf = s.rdbuf ++ d) ∨
    (∃ c n, u.rdbuf = s.rdbuf.drop n ∧ u.completions = s.completions ++ [(c, .ok (.bytes (s.rdbuf.take n)))])

/-- The error codes (60_exceptions.md R310): the number of each error and of a result, every error's number in
`0x01`..`0x11`, and an ABANDON code names an error of that number exactly when it is one of them. The info of the error
that an ABANDON code names is a free value (assumption log 2). -/
def Obligations.ErrorCodesAreNumbered : Prop :=
  (∀ r : Result, Completion.code (.ok r) = 0x00#8) ∧
  (∀ e : Err, Completion.code (.err e) = e.code) ∧
  Err.code .invalidDelimiter = 0x01#8 ∧
  (∀ n : Nat, Err.code (.lengthMismatch n) = 0x02#8) ∧
  (∀ got computed : Byte, Err.code (.checksumMismatch got computed) = 0x03#8) ∧
  (∀ n : Nat, Err.code (.frameTooLarge n) = 0x04#8) ∧
  Err.code .decodeWrongType = 0x05#8 ∧
  (∀ n : Nat, Err.code (.decodeShort n) = 0x06#8) ∧
  (∀ n : Nat, Err.code (.decodeWrongLength n) = 0x07#8) ∧
  (∀ m : Mark, Err.code (.unknownMark m) = 0x08#8) ∧
  Err.code .noMarksAvailable = 0x09#8 ∧
  (∀ (b : Byte) (x : ATStatus), Err.code (.remoteRejected b x) = 0x0A#8) ∧
  (∀ (b : Byte) (x : TxStatus), Err.code (.deliveryFailed b x) = 0x0B#8) ∧
  (∀ r : Reason, Err.code (.transportClosed r) = 0x0C#8) ∧
  Err.code .timeout = 0x0D#8 ∧
  (∀ t : Option Byte, Err.code (.responseTypeMismatch t) = 0x0E#8) ∧
  (∀ n : Nat, Err.code (.payloadTooLarge n) = 0x0F#8) ∧
  Err.code .invalidRequest = 0x10#8 ∧
  Err.code .abandoned = 0x11#8 ∧
  (∀ e : Err, errorCodeOk e.code = true) ∧
  (∀ (k : Nat) (code : Byte), (∃ e, errOfCode k code = some e) ↔ errorCodeOk code = true) ∧
  (∀ (k : Nat) (code : Byte) (e : Err), errOfCode k code = some e → e.code = code)
end

