-- ==== Sys2Proof/Laws/Operands.lean ====
section
/-! SUPPORT. Field assembly undone: a 16-bit and a 64-bit field read back from its bytes, and each operand form of a
request record read back from its bytes with whatever follows left over. -/

namespace Sys2Proof

@[simp] theorem byteAt_cons_zero (b : Byte) (s : Bytes) : byteAt (b :: s) 0 = b := rfl

@[simp] theorem byteAt_cons_succ (b : Byte) (s : Bytes) (i : Nat) : byteAt (b :: s) (i + 1) = byteAt s i := rfl

theorem be16_be16bytes (v : Half) : BitVec.ofNat 16 (be16 (v.extractLsb' 8 8) (v.extractLsb' 0 8)) = v := by
  apply BitVec.eq_of_toNat_eq
  have := v.isLt
  simp [be16, BitVec.extractLsb'_toNat, Nat.shiftRight_eq_div_pow]
  omega

theorem beNat_be64bytes (a : Addr64) : BitVec.ofNat 64 (beNat (be64bytes a)) = a := by
  apply BitVec.eq_of_toNat_eq
  have := a.isLt
  simp [beNat, be64bytes, BitVec.extractLsb'_toNat, Nat.shiftRight_eq_div_pow]
  omega

/-- An address read back at the front of its bytes. -/
theorem addrAt_be64bytes (a : Addr64) (s : Bytes) : addrAt (be64bytes a ++ s) 0 = a := by
  have h := beNat_be64bytes a
  simpa [addrAt, be64bytes] using h

/-- A 16-bit field read back at the front of its bytes. -/
theorem halfAt_be16bytes (v : Half) (s : Bytes) : halfAt (be16bytes v ++ s) 0 = v := by
  have h := be16_be16bytes v
  simpa [halfAt, be16bytes] using h

@[simp] theorem be64bytes_length (a : Addr64) : (be64bytes a).length = 8 := rfl

@[simp] theorem be16bytes_length (v : Half) : (be16bytes v).length = 2 := rfl

@[simp] theorem Mnemonic.bytes_length (mn : Mnemonic) : mn.bytes.length = 2 := rfl

theorem takeNat_natBytesFuel (s : Bytes) :
    ∀ f n, n ≤ f → takeNat (natBytesFuel f n ++ s) = some (n, s) := by
  intro f
  induction f with
  | zero =>
    intro n hn
    have : n = 0 := by omega
    subst this
    simp [natBytesFuel, takeNat]
  | succ f ih =>
    intro n hn
    unfold natBytesFuel
    split
    · next h =>
      have hm : n % 256 = n := by omega
      simp [takeNat, hm, h]
    · next h =>
      have h2 : (128 + n % 128) % 256 = 128 + n % 128 := by omega
      have hlt : ¬ 128 + n % 128 < 128 := by omega
      have hd : 128 + n % 128 - 128 + 128 * (n / 128) = n := by omega
      simp only [List.cons_append, takeNat, BitVec.toNat_ofNat, ih (n / 128) (by omega), Nat.reducePow, h2,
        if_neg hlt, hd]

/-- A natural operand is read back. -/
@[simp] theorem takeNat_natBytes (n : Nat) (s : Bytes) : takeNat (natBytes n ++ s) = some (n, s) :=
  takeNat_natBytesFuel s n n (le_refl n)

/-- A `Bytes` operand is read back. -/
@[simp] theorem takeSized_sizedBytes (b s : Bytes) : takeSized (sizedBytes b ++ s) = some (b, s) := by
  simp [takeSized, sizedBytes, List.append_assoc]

/-- A `bool` operand is read back. -/
@[simp] theorem takeBool_boolByte (b : Bool) (s : Bytes) : takeBool (boolByte b :: s) = some (b, s) := by
  cases b <;> simp [takeBool, boolByte]

/-- An `Option Bytes` operand is read back. -/
@[simp] theorem takeOptBytes_optBytes (p : Option Bytes) (s : Bytes) :
    takeOptBytes (optBytes p ++ s) = some (p, s) := by
  cases p with
  | none => simp [takeOptBytes, optBytes, takeBool]
  | some b => simp [takeOptBytes, optBytes, takeBool]

/-- A mnemonic operand is read back. -/
@[simp] theorem takeMnemonic_bytes (mn : Mnemonic) (s : Bytes) : takeMnemonic (mn.bytes ++ s) = some (mn, s) := rfl

/-- A `u64` operand is read back. -/
@[simp] theorem takeAddr_be64bytes (a : Addr64) (s : Bytes) : takeAddr (be64bytes a ++ s) = some (a, s) := by
  have h : ¬ (be64bytes a ++ s).length < 8 := by simp
  simp only [takeAddr, addrAt_be64bytes, if_pos (Nat.le_of_not_lt h)]
  rfl

@[simp] theorem takeByte_cons (b : Byte) (s : Bytes) : takeByte (b :: s) = some (b, s) := rfl

end Sys2Proof
end

