-- ==== Sys2Proof/Laws/State.lean ====
section
/-! SUPPORT. What each update of the state does to each field, and the reads of the pool, the slots and the callers
after each update. -/

namespace Sys2Proof.Machine

@[simp] theorem State.setPool_sess (s : State) (m : Mark) (o : Option Ticket) : (s.setPool m o).sess = s.sess := rfl
@[simp] theorem State.setPool_syncbuf (s : State) (m : Mark) (o : Option Ticket) : (s.setPool m o).syncbuf = s.syncbuf := rfl
@[simp] theorem State.setPool_txq (s : State) (m : Mark) (o : Option Ticket) : (s.setPool m o).txq = s.txq := rfl
@[simp] theorem State.setPool_wireOut (s : State) (m : Mark) (o : Option Ticket) : (s.setPool m o).wireOut = s.wireOut := rfl
@[simp] theorem State.setPool_pool (s : State) (m : Mark) (o : Option Ticket) : (s.setPool m o).pool = s.pool.set m.toNat o m.isLt := rfl
@[simp] theorem State.setPool_nextTicket (s : State) (m : Mark) (o : Option Ticket) : (s.setPool m o).nextTicket = s.nextTicket := rfl
@[simp] theorem State.setPool_slots (s : State) (m : Mark) (o : Option Ticket) : (s.setPool m o).slots = s.slots := rfl
@[simp] theorem State.setPool_rdbuf (s : State) (m : Mark) (o : Option Ticket) : (s.setPool m o).rdbuf = s.rdbuf := rfl
@[simp] theorem State.setPool_diag (s : State) (m : Mark) (o : Option Ticket) : (s.setPool m o).diag = s.diag := rfl
@[simp] theorem State.setPool_calls (s : State) (m : Mark) (o : Option Ticket) : (s.setPool m o).calls = s.calls := rfl
@[simp] theorem State.setPool_cfg (s : State) (m : Mark) (o : Option Ticket) : (s.setPool m o).cfg = s.cfg := rfl
@[simp] theorem State.setPool_closeCtl (s : State) (m : Mark) (o : Option Ticket) : (s.setPool m o).closeCtl = s.closeCtl := rfl
@[simp] theorem State.setPool_completions (s : State) (m : Mark) (o : Option Ticket) : (s.setPool m o).completions = s.completions := rfl
@[simp] theorem State.setPool_reqCaller (s : State) (m : Mark) (o : Option Ticket) : (s.setPool m o).reqCaller = s.reqCaller := rfl
@[simp] theorem State.setPool_inputs (s : State) (m : Mark) (o : Option Ticket) : (s.setPool m o).inputs = s.inputs := rfl
@[simp] theorem State.setPool_freeCount (s : State) (m : Mark) (o : Option Ticket) : (s.setPool m o).freeCount = s.freeCount := rfl

@[simp] theorem State.setSlot_sess (s : State) (t : Ticket) (v : SlotState) : (s.setSlot t v).sess = s.sess := rfl
@[simp] theorem State.setSlot_syncbuf (s : State) (t : Ticket) (v : SlotState) : (s.setSlot t v).syncbuf = s.syncbuf := rfl
@[simp] theorem State.setSlot_txq (s : State) (t : Ticket) (v : SlotState) : (s.setSlot t v).txq = s.txq := rfl
@[simp] theorem State.setSlot_wireOut (s : State) (t : Ticket) (v : SlotState) : (s.setSlot t v).wireOut = s.wireOut := rfl
@[simp] theorem State.setSlot_pool (s : State) (t : Ticket) (v : SlotState) : (s.setSlot t v).pool = s.pool := rfl
@[simp] theorem State.setSlot_nextTicket (s : State) (t : Ticket) (v : SlotState) : (s.setSlot t v).nextTicket = s.nextTicket := rfl
@[simp] theorem State.setSlot_slots (s : State) (t : Ticket) (v : SlotState) : (s.setSlot t v).slots = tableSet .unused s.slots t v := rfl
@[simp] theorem State.setSlot_rdbuf (s : State) (t : Ticket) (v : SlotState) : (s.setSlot t v).rdbuf = s.rdbuf := rfl
@[simp] theorem State.setSlot_diag (s : State) (t : Ticket) (v : SlotState) : (s.setSlot t v).diag = s.diag := rfl
@[simp] theorem State.setSlot_calls (s : State) (t : Ticket) (v : SlotState) : (s.setSlot t v).calls = s.calls := rfl
@[simp] theorem State.setSlot_cfg (s : State) (t : Ticket) (v : SlotState) : (s.setSlot t v).cfg = s.cfg := rfl
@[simp] theorem State.setSlot_closeCtl (s : State) (t : Ticket) (v : SlotState) : (s.setSlot t v).closeCtl = s.closeCtl := rfl
@[simp] theorem State.setSlot_completions (s : State) (t : Ticket) (v : SlotState) : (s.setSlot t v).completions = s.completions := rfl
@[simp] theorem State.setSlot_reqCaller (s : State) (t : Ticket) (v : SlotState) : (s.setSlot t v).reqCaller = s.reqCaller := rfl
@[simp] theorem State.setSlot_inputs (s : State) (t : Ticket) (v : SlotState) : (s.setSlot t v).inputs = s.inputs := rfl
@[simp] theorem State.setSlot_freeCount (s : State) (t : Ticket) (v : SlotState) : (s.setSlot t v).freeCount = s.freeCount := rfl

@[simp] theorem State.setCall_sess (s : State) (c : CallerId) (v : CallState) : (s.setCall c v).sess = s.sess := rfl
@[simp] theorem State.setCall_syncbuf (s : State) (c : CallerId) (v : CallState) : (s.setCall c v).syncbuf = s.syncbuf := rfl
@[simp] theorem State.setCall_txq (s : State) (c : CallerId) (v : CallState) : (s.setCall c v).txq = s.txq := rfl
@[simp] theorem State.setCall_wireOut (s : State) (c : CallerId) (v : CallState) : (s.setCall c v).wireOut = s.wireOut := rfl
@[simp] theorem State.setCall_pool (s : State) (c : CallerId) (v : CallState) : (s.setCall c v).pool = s.pool := rfl
@[simp] theorem State.setCall_nextTicket (s : State) (c : CallerId) (v : CallState) : (s.setCall c v).nextTicket = s.nextTicket := rfl
@[simp] theorem State.setCall_slots (s : State) (c : CallerId) (v : CallState) : (s.setCall c v).slots = s.slots := rfl
@[simp] theorem State.setCall_rdbuf (s : State) (c : CallerId) (v : CallState) : (s.setCall c v).rdbuf = s.rdbuf := rfl
@[simp] theorem State.setCall_diag (s : State) (c : CallerId) (v : CallState) : (s.setCall c v).diag = s.diag := rfl
@[simp] theorem State.setCall_calls (s : State) (c : CallerId) (v : CallState) : (s.setCall c v).calls = tableSet .idle s.calls c v := rfl
@[simp] theorem State.setCall_cfg (s : State) (c : CallerId) (v : CallState) : (s.setCall c v).cfg = s.cfg := rfl
@[simp] theorem State.setCall_closeCtl (s : State) (c : CallerId) (v : CallState) : (s.setCall c v).closeCtl = s.closeCtl := rfl
@[simp] theorem State.setCall_completions (s : State) (c : CallerId) (v : CallState) : (s.setCall c v).completions = s.completions := rfl
@[simp] theorem State.setCall_reqCaller (s : State) (c : CallerId) (v : CallState) : (s.setCall c v).reqCaller = s.reqCaller := rfl
@[simp] theorem State.setCall_inputs (s : State) (c : CallerId) (v : CallState) : (s.setCall c v).inputs = s.inputs := rfl
@[simp] theorem State.setCall_freeCount (s : State) (c : CallerId) (v : CallState) : (s.setCall c v).freeCount = s.freeCount := rfl

@[simp] theorem State.emit_sess (s : State) (e : Event) : (s.emit e).sess = s.sess := rfl
@[simp] theorem State.emit_syncbuf (s : State) (e : Event) : (s.emit e).syncbuf = s.syncbuf := rfl
@[simp] theorem State.emit_txq (s : State) (e : Event) : (s.emit e).txq = s.txq := rfl
@[simp] theorem State.emit_wireOut (s : State) (e : Event) : (s.emit e).wireOut = s.wireOut := rfl
@[simp] theorem State.emit_pool (s : State) (e : Event) : (s.emit e).pool = s.pool := rfl
@[simp] theorem State.emit_nextTicket (s : State) (e : Event) : (s.emit e).nextTicket = s.nextTicket := rfl
@[simp] theorem State.emit_slots (s : State) (e : Event) : (s.emit e).slots = s.slots := rfl
@[simp] theorem State.emit_rdbuf (s : State) (e : Event) : (s.emit e).rdbuf = s.rdbuf := rfl
@[simp] theorem State.emit_diag (s : State) (e : Event) : (s.emit e).diag = s.diag ++ [e] := rfl
@[simp] theorem State.emit_calls (s : State) (e : Event) : (s.emit e).calls = s.calls := rfl
@[simp] theorem State.emit_cfg (s : State) (e : Event) : (s.emit e).cfg = s.cfg := rfl
@[simp] theorem State.emit_closeCtl (s : State) (e : Event) : (s.emit e).closeCtl = s.closeCtl := rfl
@[simp] theorem State.emit_completions (s : State) (e : Event) : (s.emit e).completions = s.completions := rfl
@[simp] theorem State.emit_reqCaller (s : State) (e : Event) : (s.emit e).reqCaller = s.reqCaller := rfl
@[simp] theorem State.emit_inputs (s : State) (e : Event) : (s.emit e).inputs = s.inputs := rfl
@[simp] theorem State.emit_freeCount (s : State) (e : Event) : (s.emit e).freeCount = s.freeCount := rfl

@[simp] theorem State.complete_sess (s : State) (c : CallerId) (x : Completion) : (s.complete c x).sess = s.sess := rfl
@[simp] theorem State.complete_syncbuf (s : State) (c : CallerId) (x : Completion) : (s.complete c x).syncbuf = s.syncbuf := rfl
@[simp] theorem State.complete_txq (s : State) (c : CallerId) (x : Completion) : (s.complete c x).txq = s.txq := rfl
@[simp] theorem State.complete_wireOut (s : State) (c : CallerId) (x : Completion) : (s.complete c x).wireOut = s.wireOut := rfl
@[simp] theorem State.complete_pool (s : State) (c : CallerId) (x : Completion) : (s.complete c x).pool = s.pool := rfl
@[simp] theorem State.complete_nextTicket (s : State) (c : CallerId) (x : Completion) : (s.complete c x).nextTicket = s.nextTicket := rfl
@[simp] theorem State.complete_slots (s : State) (c : CallerId) (x : Completion) : (s.complete c x).slots = s.slots := rfl
@[simp] theorem State.complete_rdbuf (s : State) (c : CallerId) (x : Completion) : (s.complete c x).rdbuf = s.rdbuf := rfl
@[simp] theorem State.complete_diag (s : State) (c : CallerId) (x : Completion) : (s.complete c x).diag = s.diag := rfl
@[simp] theorem State.complete_calls (s : State) (c : CallerId) (x : Completion) : (s.complete c x).calls = s.calls := rfl
@[simp] theorem State.complete_cfg (s : State) (c : CallerId) (x : Completion) : (s.complete c x).cfg = s.cfg := rfl
@[simp] theorem State.complete_closeCtl (s : State) (c : CallerId) (x : Completion) : (s.complete c x).closeCtl = s.closeCtl := rfl
@[simp] theorem State.complete_completions (s : State) (c : CallerId) (x : Completion) : (s.complete c x).completions = s.completions ++ [(c, x)] := rfl
@[simp] theorem State.complete_reqCaller (s : State) (c : CallerId) (x : Completion) : (s.complete c x).reqCaller = s.reqCaller := rfl
@[simp] theorem State.complete_inputs (s : State) (c : CallerId) (x : Completion) : (s.complete c x).inputs = s.inputs := rfl
@[simp] theorem State.complete_freeCount (s : State) (c : CallerId) (x : Completion) : (s.complete c x).freeCount = s.freeCount := rfl

@[simp] theorem State.finish_eq (s : State) (r : Result) : s.finish r = s.complete s.reqCaller (.ok r) := rfl
@[simp] theorem State.fail_eq (s : State) (e : Err) : s.fail e = s.complete s.reqCaller (.err e) := rfl

@[simp] theorem State.setSlot_poolAt (s : State) (t : Ticket) (v : SlotState) (m' : Mark) : (s.setSlot t v).poolAt m' = s.poolAt m' := rfl
@[simp] theorem State.setCall_poolAt (s : State) (c : CallerId) (v : CallState) (m' : Mark) : (s.setCall c v).poolAt m' = s.poolAt m' := rfl
@[simp] theorem State.emit_poolAt (s : State) (e : Event) (m' : Mark) : (s.emit e).poolAt m' = s.poolAt m' := rfl
@[simp] theorem State.complete_poolAt (s : State) (c : CallerId) (x : Completion) (m' : Mark) : (s.complete c x).poolAt m' = s.poolAt m' := rfl
@[simp] theorem State.setPool_slotAt (s : State) (m : Mark) (o : Option Ticket) (t' : Ticket) : (s.setPool m o).slotAt t' = s.slotAt t' := rfl
@[simp] theorem State.setCall_slotAt (s : State) (c : CallerId) (v : CallState) (t' : Ticket) : (s.setCall c v).slotAt t' = s.slotAt t' := rfl
@[simp] theorem State.emit_slotAt (s : State) (e : Event) (t' : Ticket) : (s.emit e).slotAt t' = s.slotAt t' := rfl
@[simp] theorem State.complete_slotAt (s : State) (c : CallerId) (x : Completion) (t' : Ticket) : (s.complete c x).slotAt t' = s.slotAt t' := rfl
@[simp] theorem State.setPool_callAt (s : State) (m : Mark) (o : Option Ticket) (c' : CallerId) : (s.setPool m o).callAt c' = s.callAt c' := rfl
@[simp] theorem State.setSlot_callAt (s : State) (t : Ticket) (v : SlotState) (c' : CallerId) : (s.setSlot t v).callAt c' = s.callAt c' := rfl
@[simp] theorem State.emit_callAt (s : State) (e : Event) (c' : CallerId) : (s.emit e).callAt c' = s.callAt c' := rfl
@[simp] theorem State.complete_callAt (s : State) (c : CallerId) (x : Completion) (c' : CallerId) : (s.complete c x).callAt c' = s.callAt c' := rfl

theorem State.poolAt_setPool_same (s : State) (m : Mark) (o : Option Ticket) : (s.setPool m o).poolAt m = o := by
  simp [State.poolAt]

theorem State.poolAt_setPool_other (s : State) (m m' : Mark) (o : Option Ticket) (h : m' ≠ m) :
    (s.setPool m o).poolAt m' = s.poolAt m' := by
  have h' : m.toNat ≠ m'.toNat := fun e => h (BitVec.eq_of_toNat_eq e.symm)
  simp [State.poolAt, h']

@[simp] theorem State.poolAt_setPool (s : State) (m m' : Mark) (o : Option Ticket) :
    (s.setPool m o).poolAt m' = if m' = m then o else s.poolAt m' := by
  split
  · next h => subst h; exact s.poolAt_setPool_same m' o
  · next h => exact s.poolAt_setPool_other m m' o h

end Sys2Proof.Machine
end

