-- ==== Sys2Proof/Laws/Table.lean ====
section
/-! SUPPORT. The laws of the sparse tables: a read after a write to the same key gives the value, a write leaves every
other key alone, and every write keeps the canonical form. -/

namespace Sys2Proof.Machine

variable {α : Type}

@[simp] theorem tableGet_nil (d : α) (k : Nat) : tableGet d [] k = d := rfl

theorem tableGet_cons (d : α) (e : Nat × α) (l : List (Nat × α)) (k : Nat) :
    tableGet d (e :: l) k = if e.1 = k then e.2 else tableGet d l k := by
  unfold tableGet
  by_cases h : e.1 = k <;> simp [h]

theorem tableGet_filter_same (d : α) (l : List (Nat × α)) (k : Nat) :
    tableGet d (l.filter (fun e => e.1 != k)) k = d := by
  induction l with
  | nil => rfl
  | cons e l ih =>
    by_cases h : e.1 = k
    · simp [h, ih]
    · simp [h, tableGet_cons, ih]

theorem tableGet_filter_other (d : α) (l : List (Nat × α)) (k j : Nat) (hj : j ≠ k) :
    tableGet d (l.filter (fun e => e.1 != k)) j = tableGet d l j := by
  induction l with
  | nil => rfl
  | cons e l ih =>
    by_cases h : e.1 = k
    · have : ¬ k = j := fun x => hj x.symm
      simp [h, tableGet_cons, ih, this]
    · simp [h, tableGet_cons, ih]

theorem tableGet_insert_same (d : α) (k : Nat) (v : α) (l : List (Nat × α)) (h : ∀ e ∈ l, e.1 ≠ k) :
    tableGet d (tableInsert k v l) k = v := by
  induction l with
  | nil => simp [tableInsert, tableGet_cons]
  | cons e l ih =>
    have he : e.1 ≠ k := h e (by simp)
    unfold tableInsert
    split
    · simp [tableGet_cons]
    · simp [tableGet_cons, he, ih (fun x hx => h x (by simp [hx]))]

theorem tableGet_insert_other (d : α) (k j : Nat) (v : α) (l : List (Nat × α)) (hj : j ≠ k) :
    tableGet d (tableInsert k v l) j = tableGet d l j := by
  have hk : ¬ k = j := fun x => hj x.symm
  induction l with
  | nil => simp [tableInsert, tableGet_cons, hk]
  | cons e l ih =>
    unfold tableInsert
    split
    · simp [tableGet_cons, hk]
    · simp [tableGet_cons, ih]

variable [DecidableEq α]

/-- Reading a table after a write. -/
theorem tableGet_set (d : α) (l : List (Nat × α)) (k j : Nat) (v : α) :
    tableGet d (tableSet d l k v) j = if j = k then v else tableGet d l j := by
  unfold tableSet
  by_cases hj : j = k
  · subst hj
    split
    · next hv => simp [tableGet_filter_same, hv]
    · simp [tableGet_insert_same]
  · split
    · simp [hj, tableGet_filter_other]
    · simp [hj, tableGet_insert_other, tableGet_filter_other]

theorem tableInsert_mem (k : Nat) (v : α) (l : List (Nat × α)) (x : Nat × α) :
    x ∈ tableInsert k v l ↔ x = (k, v) ∨ x ∈ l := by
  induction l with
  | nil => simp [tableInsert]
  | cons e l ih =>
    unfold tableInsert
    split
    · simp
    · simp only [List.mem_cons, ih]; tauto

theorem tableInsert_sorted (k : Nat) (v : α) (l : List (Nat × α)) (h : l.Pairwise (fun a b => a.1 < b.1))
    (hk : ∀ e ∈ l, e.1 ≠ k) : (tableInsert k v l).Pairwise (fun a b => a.1 < b.1) := by
  induction l with
  | nil => simp [tableInsert]
  | cons e l ih =>
    rw [List.pairwise_cons] at h
    unfold tableInsert
    split
    · next hlt =>
      refine List.pairwise_cons.2 ⟨?_, List.pairwise_cons.2 h⟩
      intro x hx
      rcases List.mem_cons.1 hx with rfl | hx
      · exact hlt
      · exact lt_trans hlt (h.1 x hx)
    · next hge =>
      have hne : e.1 ≠ k := hk e (by simp)
      refine List.pairwise_cons.2 ⟨?_, ih h.2 (fun x hx => hk x (by simp [hx]))⟩
      intro x hx
      rcases (tableInsert_mem k v l x).1 hx with rfl | hx
      · simp only; omega
      · exact h.1 x hx

/-- Every write keeps the canonical form. -/
theorem tableSet_wf (d : α) (l : List (Nat × α)) (k : Nat) (v : α) (h : tableWf d l = true) :
    tableWf d (tableSet d l k v) = true := by
  simp only [tableWf, Bool.and_eq_true, decide_eq_true_eq, List.all_eq_true] at h ⊢
  have hs := h.1.filter (fun e => e.1 != k)
  unfold tableSet
  split
  · exact ⟨hs, fun x hx => h.2 x (List.mem_of_mem_filter hx)⟩
  · next hv =>
    refine ⟨tableInsert_sorted k v _ hs (by simp), fun x hx => ?_⟩
    rcases (tableInsert_mem k v _ x).1 hx with rfl | hx
    · exact hv
    · exact h.2 x (List.mem_of_mem_filter hx)

@[simp] theorem State.slotAt_setSlot (s : State) (t t' : Ticket) (v : SlotState) :
    (s.setSlot t v).slotAt t' = if t' = t then v else s.slotAt t' :=
  tableGet_set _ _ _ _ _

@[simp] theorem State.callAt_setCall (s : State) (c c' : CallerId) (v : CallState) :
    (s.setCall c v).callAt c' = if c' = c then v else s.callAt c' :=
  tableGet_set _ _ _ _ _

end Sys2Proof.Machine
end

