-- ==== Sys2Proof/Laws/Ops.lean ====
section
/-! SUPPORT. One lemma for each shared operation that says once what it can do; later proofs cite these and do not
unfold the operations. -/

namespace Sys2Proof.Machine

/-! ## Tag pool -/

theorem State.freeMarkFrom_some (s : State) (m : Mark) :
    ∀ k a, a + k ≤ 256 → s.freeMarkFrom k a = some m →
      a ≤ m.toNat ∧ m.toNat < a + k ∧ s.poolAt m = none ∧
        ∀ m' : Mark, a ≤ m'.toNat → m'.toNat < m.toNat → s.poolAt m' ≠ none := by
  intro k
  induction k with
  | zero => intro a _ h; simp [State.freeMarkFrom] at h
  | succ k ih =>
    intro a ha h
    have hn : (BitVec.ofNat 8 a).toNat = a := by simp; omega
    unfold State.freeMarkFrom at h
    split at h
    · next hp =>
      simp only [Option.some.injEq] at h
      subst h
      refine ⟨by omega, by omega, hp, fun m' h1 h2 => by omega⟩
    · next t hp =>
      obtain ⟨h1, h2, h3, h4⟩ := ih (a + 1) (by omega) h
      refine ⟨by omega, by omega, h3, fun m' h5 h6 => ?_⟩
      by_cases he : m'.toNat = a
      · have : m' = BitVec.ofNat 8 a := BitVec.eq_of_toNat_eq (by omega)
        simp [this, hp]
      · exact h4 m' (by omega) h6

theorem State.freeMarkFrom_none (s : State) :
    ∀ k a, a + k ≤ 256 → s.freeMarkFrom k a = none →
      ∀ m' : Mark, a ≤ m'.toNat → m'.toNat < a + k → s.poolAt m' ≠ none := by
  intro k
  induction k with
  | zero => intro a _ _ m' h1 h2; omega
  | succ k ih =>
    intro a ha h m' h1 h2
    unfold State.freeMarkFrom at h
    split at h
    · simp at h
    · next t hp =>
      by_cases he : m'.toNat = a
      · have : m' = BitVec.ofNat 8 a := BitVec.eq_of_toNat_eq (by simp; omega)
        simp [this, hp]
      · exact ih (a + 1) (by omega) h m' (by omega) (by omega)

theorem mark_ne_zero_iff (m : Mark) : m ≠ 0#8 ↔ 1 ≤ m.toNat := by
  constructor
  · intro h
    rcases Nat.eq_zero_or_pos m.toNat with h0 | h0
    · exact absurd (BitVec.eq_of_toNat_eq (by simpa using h0)) h
    · exact h0
  · intro h h0; subst h0; simp at h

/-- The free mark that ACQUIRE takes is the least one above 0. -/
theorem State.freeMark_some (s : State) (m : Mark) (h : s.freeMark = some m) :
    m ≠ 0#8 ∧ s.poolAt m = none ∧ ∀ m' : Mark, m' ≠ 0#8 → m'.toNat < m.toNat → s.poolAt m' ≠ none := by
  obtain ⟨h1, _, h3, h4⟩ := s.freeMarkFrom_some m 255 1 (by omega) h
  exact ⟨(mark_ne_zero_iff m).2 h1, h3, fun m' h5 h6 => h4 m' ((mark_ne_zero_iff m').1 h5) h6⟩

theorem State.freeMark_none (s : State) (h : s.freeMark = none) (m : Mark) (hm : m ≠ 0#8) : s.poolAt m ≠ none :=
  s.freeMarkFrom_none 255 1 (by omega) h m ((mark_ne_zero_iff m).1 hm) (by have := m.isLt; omega)

/-- Everything ACQUIRE can do. -/
theorem acquireOp_cases (s : State) :
    (∃ r, s.sess.ended = some r ∧ acquireOp s = .error (.transportClosed r)) ∨
    (s.sess.ended = none ∧ s.freeMark = none ∧ acquireOp s = .error .noMarksAvailable) ∨
    (∃ m, s.sess.ended = none ∧ s.freeMark = some m ∧ acquireOp s = .ok (m, s.nextTicket, s.reserve m)) := by
  unfold acquireOp
  cases h : s.sess.ended with
  | some r => exact .inl ⟨r, rfl, rfl⟩
  | none =>
    cases h' : s.freeMark with
    | none => exact .inr (.inl ⟨rfl, rfl, rfl⟩)
    | some m => exact .inr (.inr ⟨m, rfl, rfl, rfl⟩)

@[simp] theorem State.reserve_poolAt (s : State) (m m' : Mark) :
    (s.reserve m).poolAt m' = if m' = m then some s.nextTicket else s.poolAt m' :=
  s.poolAt_setPool m m' (some s.nextTicket)

@[simp] theorem State.reserve_slotAt (s : State) (m : Mark) (t : Ticket) :
    (s.reserve m).slotAt t = if t = s.nextTicket then .waiting else s.slotAt t :=
  State.slotAt_setSlot (s.setPool m (some s.nextTicket)) s.nextTicket t .waiting

@[simp] theorem State.reserve_nextTicket (s : State) (m : Mark) : (s.reserve m).nextTicket = s.nextTicket + 1 := rfl

/-- What a reservation leaves alone. -/
theorem State.reserve_eq (s : State) (m : Mark) :
    s.reserve m = { s with pool := (s.reserve m).pool, slots := (s.reserve m).slots, nextTicket := s.nextTicket + 1 } :=
  rfl

/-- Everything RELEASE can do to the state. -/
theorem releaseOp_cases (m : Mark) (resp : Bytes) (s : State) :
    (s.poolAt m = none ∧ releaseError m s = some (.unknownMark m) ∧ releaseOp m resp s = s.emit (.unknownMark m)) ∨
    (∃ t, s.poolAt m = some t ∧ releaseError m s = none ∧
      releaseOp m resp s = (s.setPool m none).setSlot t (.done resp)) := by
  unfold releaseOp releaseError
  cases s.poolAt m with
  | none => exact .inl ⟨rfl, rfl, rfl⟩
  | some t => exact .inr ⟨t, rfl, rfl, rfl⟩

/-- Everything ABANDON can do to the state. -/
theorem abandonOp_cases (m : Mark) (t : Ticket) (e : Err) (s : State) :
    (s.poolAt m = some t ∧ abandonOp m t e s = (s.setPool m none).setSlot t (.failed e)) ∨
    (s.poolAt m ≠ some t ∧ abandonOp m t e s = s) := by
  unfold abandonOp
  by_cases h : s.poolAt m = some t
  · exact .inl ⟨h, by simp [h]⟩
  · exact .inr ⟨h, by simp [h]⟩

/-- Everything AWAIT can do. -/
theorem awaitOp_cases (t : Ticket) (s : State) :
    ((s.slotAt t = .unused ∨ s.slotAt t = .retired) ∧ awaitOp t s = some (s, .error .invalidRequest)) ∨
    (s.slotAt t = .waiting ∧ awaitOp t s = none) ∨
    (∃ b, s.slotAt t = .done b ∧ awaitOp t s = some (s.setSlot t .retired, .ok b)) ∨
    (∃ e, s.slotAt t = .failed e ∧ awaitOp t s = some (s.setSlot t .retired, .error e)) := by
  unfold awaitOp
  cases s.slotAt t <;> simp

theorem forceReleaseFrom_spec (e : Err) :
    ∀ k a s, a + k ≤ 256 →
      forceReleaseFrom e k a s =
        { s with pool := (forceReleaseFrom e k a s).pool, slots := (forceReleaseFrom e k a s).slots } ∧
      (∀ m : Mark, (forceReleaseFrom e k a s).poolAt m =
        if a ≤ m.toNat ∧ m.toNat < a + k then none else s.poolAt m) ∧
      (∀ t, ((∃ m : Mark, a ≤ m.toNat ∧ m.toNat < a + k ∧ s.poolAt m = some t) →
        (forceReleaseFrom e k a s).slotAt t = .failed e)) ∧
      (∀ t, ((¬ ∃ m : Mark, a ≤ m.toNat ∧ m.toNat < a + k ∧ s.poolAt m = some t) →
        (forceReleaseFrom e k a s).slotAt t = s.slotAt t)) ∧
      (tableWf .unused s.slots = true → tableWf .unused (forceReleaseFrom e k a s).slots = true) := by
  intro k
  induction k with
  | zero =>
    intro a s _
    refine ⟨rfl, fun m => ?_, ?_, fun _ _ => rfl, fun h => h⟩
    · rw [if_neg (by omega)]; rfl
    · rintro t ⟨m, h1, h2, _⟩; omega
  | succ k ih =>
    intro a s ha
    have hn : (BitVec.ofNat 8 a).toNat = a := by simp; omega
    have key : ∀ m : Mark, m.toNat = a → m = BitVec.ofNat 8 a := fun m h => BitVec.eq_of_toNat_eq (by omega)
    unfold forceReleaseFrom
    split
    · next hp =>
      obtain ⟨h1, h2, h3, h4, h5⟩ := ih (a + 1) s (by omega)
      refine ⟨h1, fun m => ?_, ?_, ?_, h5⟩
      · rw [h2 m]
        by_cases hm : m.toNat = a
        · rw [if_neg (by omega), if_pos (by omega), key m hm, hp]
        · by_cases hr : a + 1 ≤ m.toNat ∧ m.toNat < a + 1 + k
          · rw [if_pos hr, if_pos (by omega)]
          · rw [if_neg hr, if_neg (by omega)]
      · rintro t ⟨m, h6, h7, h8⟩
        refine h3 t ⟨m, ?_, by omega, h8⟩
        rcases Nat.lt_or_ge a m.toNat with h | h
        · exact h
        · rw [key m (by omega), hp] at h8; simp at h8
      · intro t ht
        exact h4 t (fun ⟨m, h6, h7, h8⟩ => ht ⟨m, by omega, by omega, h8⟩)
    · next t0 hp =>
      obtain ⟨h1, h2, h3, h4, h5⟩ :=
        ih (a + 1) ((s.setPool (BitVec.ofNat 8 a) none).setSlot t0 (.failed e)) (by omega)
      have hpool : ∀ m : Mark, ((s.setPool (BitVec.ofNat 8 a) none).setSlot t0 (.failed e)).poolAt m =
          if m = BitVec.ofNat 8 a then none else s.poolAt m := by intro m; simp
      have hslot : ∀ t, ((s.setPool (BitVec.ofNat 8 a) none).setSlot t0 (.failed e)).slotAt t =
          if t = t0 then .failed e else s.slotAt t := by intro t; simp
      refine ⟨h1, fun m => ?_, ?_, ?_, fun h => h5 (tableSet_wf SlotState.unused s.slots t0 (.failed e) h)⟩
      · rw [h2 m, hpool]
        by_cases hm : m.toNat = a
        · rw [if_neg (by omega), if_pos (key m hm), if_pos (by omega)]
        · have hm' : m ≠ BitVec.ofNat 8 a := fun h => hm (by rw [h]; exact hn)
          rw [if_neg hm']
          by_cases hr : a + 1 ≤ m.toNat ∧ m.toNat < a + 1 + k
          · rw [if_pos hr, if_pos (by omega)]
          · rw [if_neg hr, if_neg (by omega)]
      · rintro t ⟨m, h6, h7, h8⟩
        by_cases hx : ∃ m : Mark, a + 1 ≤ m.toNat ∧ m.toNat < a + 1 + k ∧
            ((s.setPool (BitVec.ofNat 8 a) none).setSlot t0 (.failed e)).poolAt m = some t
        · exact h3 t hx
        · rw [h4 t hx, hslot]
          have ht : t = t0 := by
            rcases Nat.lt_or_ge a m.toNat with h | h
            · refine absurd ⟨m, h, by omega, ?_⟩ hx
              rw [hpool, if_neg (fun h' => by rw [h', hn] at h; omega)]; exact h8
            · rw [key m (by omega), hp] at h8; exact (Option.some.inj h8).symm
          rw [if_pos ht]
      · intro t ht
        have ht0 : t ≠ t0 := fun h => ht ⟨BitVec.ofNat 8 a, by omega, by omega, h ▸ hp⟩
        rw [h4 t, hslot, if_neg ht0]
        rintro ⟨m, h6, h7, h8⟩
        rw [hpool] at h8
        split at h8
        · simp at h8
        · exact ht ⟨m, by omega, by omega, h8⟩

/-- Everything FORCE_RELEASE_ALL does. -/
theorem forceReleaseAll_spec (e : Err) (s : State) :
    forceReleaseAll e s = { s with pool := (forceReleaseAll e s).pool, slots := (forceReleaseAll e s).slots } ∧
    (∀ m : Mark, (forceReleaseAll e s).poolAt m = if m = 0#8 then s.poolAt m else none) ∧
    (∀ t, (∃ m : Mark, m ≠ 0#8 ∧ s.poolAt m = some t) → (forceReleaseAll e s).slotAt t = .failed e) ∧
    (∀ t, (¬ ∃ m : Mark, m ≠ 0#8 ∧ s.poolAt m = some t) → (forceReleaseAll e s).slotAt t = s.slotAt t) ∧
    (tableWf .unused s.slots = true → tableWf .unused (forceReleaseAll e s).slots = true) := by
  obtain ⟨h1, h2, h3, h4, h5⟩ := forceReleaseFrom_spec e 255 1 s (by omega)
  refine ⟨h1, fun m => ?_, ?_, ?_, h5⟩
  · have := m.isLt
    rw [forceReleaseAll, h2 m]
    by_cases hm : m = 0#8
    · subst hm; simp
    · have := (mark_ne_zero_iff m).1 hm
      rw [if_pos (by omega), if_neg hm]
  · rintro t ⟨m, hm, h⟩
    have := m.isLt
    exact h3 t ⟨m, (mark_ne_zero_iff m).1 hm, by omega, h⟩
  · intro t ht
    exact h4 t (fun ⟨m, hm, _, h⟩ => ht ⟨m, (mark_ne_zero_iff m).2 hm, h⟩)

/-! ## Router -/

/-- Everything a response arm can do. -/
theorem routeResp_cases {α : Type} (d : Except Err α) (p : Bytes) (s : State) :
    (∃ e, d = .error e ∧ routeResp d p s = s.emit (.decodeFailed (byteAt p 0) e)) ∨
    (∃ r, d = .ok r ∧ routeResp d p s = releaseOp (byteAt p 1) p s) := by
  cases d with
  | error e => exact .inl ⟨e, rfl, rfl⟩
  | ok r => exact .inr ⟨r, rfl, rfl⟩

/-- Everything the RX Indicator arm can do. -/
theorem routeRx_cases (p : Bytes) (s : State) :
    (∃ e, decodeRxOp p = .error e ∧ routeRx p s = s.emit (.decodeFailed 0x90#8 e)) ∨
    (∃ r, decodeRxOp p = .ok r ∧
      (∀ n, s.cfg.rdbufCap = some n → s.rdbuf.length + r.payload.length ≤ n) ∧
      routeRx p s = { s with rdbuf := s.rdbuf ++ r.payload }) ∨
    (∃ r n, decodeRxOp p = .ok r ∧ s.cfg.rdbufCap = some n ∧ n < s.rdbuf.length + r.payload.length ∧
      routeRx p s = s.emit (.rxOverflow r.payload.length)) := by
  unfold routeRx
  cases decodeRxOp p with
  | error e => exact .inl ⟨e, rfl, rfl⟩
  | ok r =>
    cases hc : s.cfg.rdbufCap with
    | none => exact .inr (.inl ⟨r, rfl, by simp, rfl⟩)
    | some n =>
      by_cases h : n < s.rdbuf.length + r.payload.length
      · exact .inr (.inr ⟨r, n, rfl, rfl, h, by simp [h]⟩)
      · refine .inr (.inl ⟨r, rfl, ?_, by simp [h]⟩)
        rintro n' hn; cases hn; omega

/-! ## Session sequencer -/

/-- Everything START of a session call can do. -/
theorem startCall_cases (op : Call) (s : State) :
    (∃ e, startCall op s = s.complete s.reqCaller (.err e)) ∨
    (∃ m, s.sess.ended = none ∧ callSize op ≤ callLimit op ∧ s.freeMark = some m ∧
      startCall op s = (s.reserve m).setCall s.reqCaller (.session .send op m s.nextTicket)) := by
  unfold startCall
  cases h : s.sess.ended with
  | some r => exact .inl ⟨_, rfl⟩
  | none =>
    by_cases hl : callLimit op < callSize op
    · exact .inl ⟨.payloadTooLarge (callSize op), by simp [hl]⟩
    · rcases acquireOp_cases s with ⟨r, hr, _⟩ | ⟨_, _, ha⟩ | ⟨m, _, hm, ha⟩
      · simp [h] at hr
      · exact .inl ⟨.noMarksAvailable, by simp [hl, ha]⟩
      · exact .inr ⟨m, rfl, by omega, hm, by simp [hl, ha]⟩

/-- Everything a SEND phase can do. -/
theorem sendPhase_cases (p : Bytes) (op : Call) (m : Mark) (t : Ticket) (s : State) :
    (∃ f, s.sess = .isOpen ∧ encodeFrameOp p = .ok f ∧ sendPhase p op m t s =
      { s.setCall s.reqCaller (.session .wait op m t) with txq := s.txq ++ [(t, f)] }) ∨
    (∃ e, s.sess = .isOpen ∧ encodeFrameOp p = .error e ∧ sendPhase p op m t s =
      (s.setCall s.reqCaller .idle).complete s.reqCaller (.err e)) ∨
    (s.sess ≠ .isOpen ∧ sendPhase p op m t s = s.setCall s.reqCaller (.session .wait op m t)) := by
  unfold sendPhase
  by_cases h : s.sess = .isOpen
  · cases he : encodeFrameOp p with
    | ok f => exact .inl ⟨f, h, rfl, by simp [h]⟩
    | error e => exact .inr (.inl ⟨e, h, rfl, by simp [h]⟩)
  · exact .inr (.inr ⟨h, by simp [h]⟩)

/-- Everything a produced frame on the sent side can do. -/
theorem sendPayload_cases (p : Bytes) (s : State) :
    sendPayload p s = s ∨
    (∃ op m t, s.callAt s.reqCaller = .session .send op m t ∧ callPayload s.cfg op m = p ∧
      sendPayload p s = sendPhase p op m t s) := by
  unfold sendPayload
  split
  · next op m t h =>
    by_cases hp : callPayload s.cfg op m = p
    · exact .inr ⟨op, m, t, h, hp, by simp [hp]⟩
    · exact .inl (by simp [hp])
  · exact .inl rfl

/-- Everything a WAIT phase can do. -/
theorem waitPhase_cases (c : CallerId) (op : Call) (m : Mark) (t : Ticket) (s : State) :
    (s.slotAt t = .waiting ∧ waitPhase c op m t s = s) ∨
    (∃ s' x, awaitOp t s = some (s', x) ∧
      waitPhase c op m t s = ((abandonOp m t .abandoned s').setCall c .idle).complete c (finishCall op x)) := by
  unfold waitPhase
  rcases awaitOp_cases t s with ⟨_, h⟩ | ⟨hw, h⟩ | ⟨b, _, h⟩ | ⟨e, _, h⟩
  · exact .inr ⟨_, _, h, by simp [h]⟩
  · exact .inl ⟨hw, by simp [h]⟩
  · exact .inr ⟨_, _, h, by simp [h]⟩
  · exact .inr ⟨_, _, h, by simp [h]⟩

/-- Everything the end of a hold in AWAIT can do. -/
theorem awaitPhase_cases (c : CallerId) (t : Ticket) (s : State) :
    (s.slotAt t = .waiting ∧ awaitPhase c t s = s) ∨
    (∃ s' x y, awaitOp t s = some (s', x) ∧ awaitPhase c t s = (s'.setCall c .idle).complete c y) := by
  unfold awaitPhase
  rcases awaitOp_cases t s with ⟨_, h⟩ | ⟨hw, h⟩ | ⟨b, _, h⟩ | ⟨e, _, h⟩
  · exact .inr ⟨_, _, _, h, by simp [h]; rfl⟩
  · exact .inl ⟨hw, by simp [h]⟩
  · exact .inr ⟨_, _, _, h, by simp [h]; rfl⟩
  · exact .inr ⟨_, _, _, h, by simp [h]; rfl⟩

/-- Everything TAKE can do. -/
theorem takeOp_cases (nmax : Nat) (s : State) :
    (s.rdbuf = [] ∧ (∀ r, s.sess ≠ .closed r) ∧ takeOp nmax s = none) ∨
    (∃ r, s.rdbuf = [] ∧ s.sess = .closed r ∧ takeOp nmax s = some (s, .error (.transportClosed r))) ∨
    (s.rdbuf ≠ [] ∧ takeOp nmax s = some ({ s with rdbuf := s.rdbuf.drop nmax }, .ok (s.rdbuf.take nmax))) := by
  unfold takeOp
  cases hr : s.rdbuf with
  | nil =>
    cases hs : s.sess with
    | isOpen => exact .inl ⟨rfl, by simp, rfl⟩
    | closing r => exact .inl ⟨rfl, by simp, rfl⟩
    | closed r => exact .inr (.inl ⟨r, rfl, rfl, rfl⟩)
  | cons b rest => exact .inr (.inr ⟨by simp, rfl⟩)

/-- Everything the end of a hold in TAKE can do. -/
theorem takePhase_cases (c : CallerId) (nmax : Nat) (s : State) :
    takePhase c nmax s = s ∨
    (∃ s' x y, takeOp nmax s = some (s', x) ∧ takePhase c nmax s = (s'.setCall c .idle).complete c y) := by
  unfold takePhase
  rcases takeOp_cases nmax s with ⟨_, _, h⟩ | ⟨r, _, _, h⟩ | ⟨_, h⟩
  · exact .inl (by simp [h])
  · exact .inr ⟨_, _, _, h, by simp [h]; rfl⟩
  · exact .inr ⟨_, _, _, h, by simp [h]; rfl⟩

/-! ## Engines -/

/-- Everything FINALIZE can do. -/
theorem finalize_cases (s : State) :
    finalize s = s ∨
    (∃ r, s.sess = .closing r ∧ scanEnabled s = false ∧
      finalize s = { forceReleaseAll (.transportClosed r)
        { s with diag := s.diag ++ leftoverEvents s, syncbuf := [], txq := [] } with sess := .closed r }) := by
  unfold finalize
  split
  · next r h =>
    by_cases he : scanEnabled s = true
    · exact .inl (by simp [he])
    · exact .inr ⟨r, h, by simpa using he, by simp [he]⟩
  · exact .inl rfl

/-- Everything TX_SEND can do. -/
theorem txSend_cases (o : WriteOutcome) (s : State) :
    txSend o s = s ∨
    (∃ t f rest, s.sess = .isOpen ∧ s.txq = (t, f) :: rest ∧ o = .ok ∧
      txSend o s = { s with txq := rest, wireOut := s.wireOut ++ f }) ∨
    (∃ t f rest j, s.sess = .isOpen ∧ s.txq = (t, f) :: rest ∧ o = .fail j ∧ j < f.length ∧
      txSend o s = enterFatal .writeError { s with txq := rest, wireOut := s.wireOut ++ f.take j }) := by
  unfold txSend
  by_cases h : s.sess = .isOpen
  · rw [if_pos h]
    cases hq : s.txq with
    | nil => exact .inl rfl
    | cons e rest =>
      obtain ⟨t, f⟩ := e
      cases o with
      | ok => exact .inr (.inl ⟨t, f, rest, h, rfl, rfl, rfl⟩)
      | fail j =>
        by_cases hj : j < f.length
        · exact .inr (.inr ⟨t, f, rest, j, h, rfl, rfl, hj, by simp [hj]⟩)
        · exact .inl (by simp [hj])
  · exact .inl (by simp [h])

/-- Everything TIMEOUT can do. -/
theorem timeoutStep_cases (c : CallerId) (s : State) :
    timeoutStep c s = s ∨
    (∃ op m t, s.callAt c = .session .wait op m t ∧ s.cfg.timeoutEnabled = true ∧ s.slotAt t = .waiting ∧
      timeoutStep c s = abandonOp m t .timeout { s with txq := s.txq.filter (fun e => e.1 != t) }) := by
  unfold timeoutStep
  split
  · next op m t h =>
    by_cases hc : s.cfg.timeoutEnabled = true ∧ s.slotAt t = .waiting
    · exact .inr ⟨op, m, t, h, hc.1, hc.2, by simp [hc.1, hc.2]⟩
    · exact .inl (by rw [if_neg hc])
  · exact .inl rfl

end Sys2Proof.Machine
end

