-- ==== Sys2Proof/Laws/PerInstr.lean ====
section
/-! SUPPORT. A family of facts about every instruction as syntax: its first encoded byte is the one the opcode table
gives its row, under the row's mask (30_encoding.md R82, R103). -/

namespace Sys2Proof.Laws

/-- The row of the opcode table: mask and match. -/
def opcodeRow (i : Instr) : Byte × Byte :=
  match i with
  | .atCommandFrame _ _ _ _ => (0xFF#8, 0x08#8)
  | .queuedAtCommandFrame _ _ _ _ => (0xFF#8, 0x09#8)
  | .txRequestFrame _ _ _ _ _ _ _ => (0xFF#8, 0x10#8)
  | .remoteAtCommandFrame _ _ _ _ _ _ _ => (0xFF#8, 0x17#8)
  | .atCommandResponseFrame _ _ _ _ => (0xFF#8, 0x88#8)
  | .txStatusFrame _ _ _ _ _ => (0xFF#8, 0x8B#8)
  | .rxIndicatorFrame _ _ _ _ => (0xFF#8, 0x90#8)
  | .remoteCommandResponseFrame _ _ _ _ _ _ => (0xFF#8, 0x97#8)
  | .encodeFrame _ => (0x1F#8, 0x01#8)
  | .decodeFrame _ => (0x1F#8, 0x02#8)
  | .syncStep _ _ => (0x1F#8, 0x03#8)
  | .acquire => (0x1F#8, 0x04#8)
  | .release _ _ => (0x1F#8, 0x05#8)
  | .abandon _ _ _ => (0x1F#8, 0x06#8)
  | .awaitSlot _ => (0x1F#8, 0x07#8)
  | .encodeAt _ _ _ _ => (0x1F#8, 0x08#8)
  | .encodeRemoteAt _ _ _ _ _ => (0x1F#8, 0x09#8)
  | .encodeTx _ _ _ _ _ => (0x1F#8, 0x0A#8)
  | .decodeAtResp _ => (0x1F#8, 0x0B#8)
  | .decodeRemoteAtResp _ => (0x1F#8, 0x0C#8)
  | .decodeRx _ => (0x1F#8, 0x0D#8)
  | .decodeTxStatus _ => (0x1F#8, 0x0E#8)
  | .write _ => (0x1F#8, 0x0F#8)
  | .atCommand _ _ _ => (0x1F#8, 0x10#8)
  | .remoteAtCommand _ _ _ _ => (0x1F#8, 0x11#8)
  | .read _ => (0x1F#8, 0x12#8)
  | .close => (0x1F#8, 0x13#8)

/-- The first byte of the encoded instruction, under the mask of its row, is the match of its row. -/
def OpcodeByte.Statement (i : Instr) : Prop :=
  ∃ b rest, (encode i).2 = b :: rest ∧ b &&& (opcodeRow i).1 = (opcodeRow i).2

theorem OpcodeByte.atCommandFrame (side : Side) (mark : Mark) (mn : Mnemonic) (param : Bytes) :
    OpcodeByte.Statement (.atCommandFrame side mark mn param) := ⟨_, _, rfl, by simp only [opcodeRow]; rfl⟩

theorem OpcodeByte.queuedAtCommandFrame (side : Side) (mark : Mark) (mn : Mnemonic) (param : Bytes) :
    OpcodeByte.Statement (.queuedAtCommandFrame side mark mn param) := ⟨_, _, rfl, by simp only [opcodeRow]; rfl⟩

theorem OpcodeByte.txRequestFrame (side : Side) (mark : Mark) (dest64 : Addr64) (dest16 : Half) (radius : Byte) (options : Byte) (data : Bytes) :
    OpcodeByte.Statement (.txRequestFrame side mark dest64 dest16 radius options data) := ⟨_, _, rfl, by simp only [opcodeRow]; rfl⟩

theorem OpcodeByte.remoteAtCommandFrame (side : Side) (mark : Mark) (dest64 : Addr64) (dest16 : Half) (options : Byte) (mn : Mnemonic) (param : Bytes) :
    OpcodeByte.Statement (.remoteAtCommandFrame side mark dest64 dest16 options mn param) := ⟨_, _, rfl, by simp only [opcodeRow]; rfl⟩

theorem OpcodeByte.atCommandResponseFrame (mark : Mark) (mn : Mnemonic) (status : Byte) (data : Bytes) :
    OpcodeByte.Statement (.atCommandResponseFrame mark mn status data) := ⟨_, _, rfl, by simp only [opcodeRow]; rfl⟩

theorem OpcodeByte.txStatusFrame (mark : Mark) (dest16 : Half) (retry : Byte) (delivery : Byte) (discovery : Byte) :
    OpcodeByte.Statement (.txStatusFrame mark dest16 retry delivery discovery) := ⟨_, _, rfl, by simp only [opcodeRow]; rfl⟩

theorem OpcodeByte.rxIndicatorFrame (src64 : Addr64) (src16 : Half) (options : Byte) (data : Bytes) :
    OpcodeByte.Statement (.rxIndicatorFrame src64 src16 options data) := ⟨_, _, rfl, by simp only [opcodeRow]; rfl⟩

theorem OpcodeByte.remoteCommandResponseFrame (mark : Mark) (src64 : Addr64) (src16 : Half) (mn : Mnemonic) (status : Byte) (data : Bytes) :
    OpcodeByte.Statement (.remoteCommandResponseFrame mark src64 src16 mn status data) := ⟨_, _, rfl, by simp only [opcodeRow]; rfl⟩

theorem OpcodeByte.encodeFrame (payload : Bytes) :
    OpcodeByte.Statement (.encodeFrame payload) := ⟨_, _, rfl, by simp only [opcodeRow]; rfl⟩

theorem OpcodeByte.decodeFrame (raw : Bytes) :
    OpcodeByte.Statement (.decodeFrame raw) := ⟨_, _, rfl, by simp only [opcodeRow]; rfl⟩

theorem OpcodeByte.syncStep (buf : Bytes) (atEnd : Bool) :
    OpcodeByte.Statement (.syncStep buf atEnd) := ⟨_, _, rfl, by simp only [opcodeRow]; rfl⟩

theorem OpcodeByte.acquire : OpcodeByte.Statement .acquire := ⟨_, _, rfl, by simp only [opcodeRow]; rfl⟩

theorem OpcodeByte.release (mark : Mark) (resp : Bytes) :
    OpcodeByte.Statement (.release mark resp) := ⟨_, _, rfl, by simp only [opcodeRow]; rfl⟩

theorem OpcodeByte.abandon (mark : Mark) (ticket : Ticket) (code : Byte) :
    OpcodeByte.Statement (.abandon mark ticket code) := ⟨_, _, rfl, by simp only [opcodeRow]; rfl⟩

theorem OpcodeByte.awaitSlot (ticket : Ticket) :
    OpcodeByte.Statement (.awaitSlot ticket) := ⟨_, _, rfl, by simp only [opcodeRow]; rfl⟩

theorem OpcodeByte.encodeAt (mn : Mnemonic) (param : Option Bytes) (mark : Mark) (queued : Bool) :
    OpcodeByte.Statement (.encodeAt mn param mark queued) := ⟨_, _, rfl, by simp only [opcodeRow]; rfl⟩

theorem OpcodeByte.encodeRemoteAt (mn : Mnemonic) (param : Option Bytes) (mark : Mark) (dest : Addr64) (options : Byte) :
    OpcodeByte.Statement (.encodeRemoteAt mn param mark dest options) := ⟨_, _, rfl, by simp only [opcodeRow]; rfl⟩

theorem OpcodeByte.encodeTx (mark : Mark) (dest : Addr64) (radius : Byte) (options : Byte) (data : Bytes) :
    OpcodeByte.Statement (.encodeTx mark dest radius options data) := ⟨_, _, rfl, by simp only [opcodeRow]; rfl⟩

theorem OpcodeByte.decodeAtResp (payload : Bytes) :
    OpcodeByte.Statement (.decodeAtResp payload) := ⟨_, _, rfl, by simp only [opcodeRow]; rfl⟩

theorem OpcodeByte.decodeRemoteAtResp (payload : Bytes) :
    OpcodeByte.Statement (.decodeRemoteAtResp payload) := ⟨_, _, rfl, by simp only [opcodeRow]; rfl⟩

theorem OpcodeByte.decodeRx (payload : Bytes) :
    OpcodeByte.Statement (.decodeRx payload) := ⟨_, _, rfl, by simp only [opcodeRow]; rfl⟩

theorem OpcodeByte.decodeTxStatus (payload : Bytes) :
    OpcodeByte.Statement (.decodeTxStatus payload) := ⟨_, _, rfl, by simp only [opcodeRow]; rfl⟩

theorem OpcodeByte.write (data : Bytes) :
    OpcodeByte.Statement (.write data) := ⟨_, _, rfl, by simp only [opcodeRow]; rfl⟩

theorem OpcodeByte.atCommand (mn : Mnemonic) (param : Option Bytes) (queued : Bool) :
    OpcodeByte.Statement (.atCommand mn param queued) := ⟨_, _, rfl, by simp only [opcodeRow]; rfl⟩

theorem OpcodeByte.remoteAtCommand (dest : Addr64) (options : Byte) (mn : Mnemonic) (param : Option Bytes) :
    OpcodeByte.Statement (.remoteAtCommand dest options mn param) := ⟨_, _, rfl, by simp only [opcodeRow]; rfl⟩

theorem OpcodeByte.read (nmax : Nat) :
    OpcodeByte.Statement (.read nmax) := ⟨_, _, rfl, by simp only [opcodeRow]; rfl⟩

theorem OpcodeByte.close : OpcodeByte.Statement .close := ⟨_, _, rfl, by simp only [opcodeRow]; rfl⟩

end Sys2Proof.Laws
end

