-- ==== Sys2Proof/Tests/Slice0.lean ====
section
/-! SUPPORT. Tests on fixed values. Expected results come from the worked examples of the rules and from
95_test_vectors.md, named in each docstring; the `witness` theorems show that the hypotheses of a statement can be met
together. -/

namespace Sys2Proof.Tests

open Sys2Proof Sys2Proof.Machine

-- The tests are elaborated one after the other: a task for each would need a thread for each.
set_option Elab.async false

/-! ## Helpers -/

/-- What holds of the next state of a step, false when there is none. -/
def after (o : Host.Outcome State Fault Refusal) (p : State → Bool) : Bool :=
  match o with
  | .next s => p s
  | .fault _ => false
  | .refused _ => false

/-- A next state that a test has looked at exists. -/
theorem exists_of_after {o : Host.Outcome State Fault Refusal} {p : State → Bool} (h : after o p = true) :
    ∃ u : State, o = .next u ∧ p u = true := by
  cases o with
  | next u => exact ⟨u, rfl, h⟩
  | fault f => exact absurd h (by simp [after])
  | refused r => exact absurd h (by simp [after])

/-- The completion that the step presents last. -/
def lastDone (s : State) : Option (CallerId × Completion) := s.completions.getLast?

/-- The state after reset with these steps to come. -/
def given (xs : List Input) : State := { State.reset with inputs := xs }

/-- The operands of the spec's Scenario C: the query "ID". -/
def idCall : Call := .atCommand ⟨0x49#8, 0x44#8⟩ none false

/-- Mark 1 is held by ticket 0, and caller 0 is in this phase of the query "ID" with them. -/
def calling (ph : Phase) (xs : List Input) : State :=
  { State.reset.reserve 1#8 with calls := [(0, .session ph idCall 1#8 0)], inputs := xs }

/-- The query "ID" of caller 0 in WAIT, its mark freed and its slot in this state. -/
def answeredCall (v : SlotState) (xs : List Input) : State :=
  { State.reset with
    nextTicket := 1
    slots := [(0, v)]
    calls := [(0, .session .wait idCall 1#8 0)]
    inputs := xs }

/-- Every mark of the pool is held by ticket 0. -/
def fullPool : State := { State.reset with pool := Vector.replicate 256 (some 0) }

/-- The session after a local CLOSE, before the drain is over. -/
def closing (xs : List Input) : State :=
  { State.reset with sess := .closing .localClose, closeCtl := true, inputs := xs }

/-- The session after FINALIZE. -/
def closed (xs : List Input) : State :=
  { State.reset with sess := .closed .readEOF, closeCtl := true, inputs := xs }

/-- `7E 00 02 23 11 CB`, the wire bytes of the spec's Scenario A. -/
def frameA : Bytes := [0x7E#8, 0x00#8, 0x02#8, 0x23#8, 0x11#8, 0xCB#8]

/-- The address `0x0013A20040A1B2C3` of the spec's examples. -/
def node : Addr64 := 0x0013A20040A1B2C3#64

/-- Its bytes. -/
def nodeBytes : Bytes := [0x00#8, 0x13#8, 0xA2#8, 0x00#8, 0x40#8, 0xA1#8, 0xB2#8, 0xC3#8]

/-! ## WellFormed refuses an ill-formed term for each of its checks -/

/-- `errorCodeOk` (R310): the codes `0x00` and `0x12`. -/
theorem test_ill_formed_error_code :
    Instr.wellFormed (.abandon 1#8 0 0x00#8) = false ∧ Instr.wellFormed (.abandon 1#8 0 0x12#8) = false ∧
    Instr.wellFormed (.abandon 1#8 0 0x01#8) = true ∧ Instr.wellFormed (.abandon 1#8 0 0x11#8) = true := by
  decide

/-- `dest16Ok` (R86, R99): a sent frame with a 16-bit destination other than `FF FE`. -/
theorem test_ill_formed_dest16 :
    Instr.wellFormed (.txRequestFrame .sent 1#8 node 0x0000#16 0#8 0#8 []) = false ∧
    Instr.wellFormed (.remoteAtCommandFrame .sent 1#8 node 0xFFFF#16 0#8 ⟨0x44#8, 0x30#8⟩ []) = false ∧
    Instr.wellFormed (.txRequestFrame .received 1#8 node 0x0000#16 0#8 0#8 []) = true := by
  decide

/-- `payloadFits` (R81): data one byte too long for the length field, in each frame type with a variable part. -/
theorem test_ill_formed_length (side : Side) (m o : Byte) (a : Addr64) (h : Half) (mn : Mnemonic) (d : Bytes) :
    (d.length = 65532 → Instr.wellFormed (.atCommandFrame side m mn d) = false) ∧
    (d.length = 65532 → Instr.wellFormed (.queuedAtCommandFrame side m mn d) = false) ∧
    (d.length = 65522 → Instr.wellFormed (.txRequestFrame side m a h o o d) = false) ∧
    (d.length = 65521 → Instr.wellFormed (.remoteAtCommandFrame side m a h o mn d) = false) ∧
    (d.length = 65531 → Instr.wellFormed (.atCommandResponseFrame m mn o d) = false) ∧
    (d.length = 65524 → Instr.wellFormed (.rxIndicatorFrame a h o d) = false) ∧
    (d.length = 65521 → Instr.wellFormed (.remoteCommandResponseFrame m a h mn o d) = false) ∧
    (d.length = 65531 → Instr.wellFormed (.atCommandFrame side m mn d) = true) := by
  refine ⟨?_, ?_, ?_, ?_, ?_, ?_, ?_, ?_⟩ <;> intro hd <;> simp [Instr.wellFormed, payloadFits, hd]

/-! ## Decoding: a word of each constructor, written out from its layout -/

/-- R83, the vector of R200. -/
theorem test_decode_atCommandFrame :
    decode .sent [0x08#8, 0x01#8, 0x49#8, 0x44#8] = .ok (.atCommandFrame .sent 1#8 ⟨0x49#8, 0x44#8⟩ []) ∧
    decode .received [0x08#8, 0x01#8, 0x49#8, 0x44#8] = .ok (.atCommandFrame .received 1#8 ⟨0x49#8, 0x44#8⟩ []) := by
  decide

/-- R83, a vector of V-E. -/
theorem test_decode_queuedAtCommandFrame :
    decode .sent [0x09#8, 0x02#8, 0x49#8, 0x44#8, 0x7F#8, 0xFF#8] =
      .ok (.queuedAtCommandFrame .sent 2#8 ⟨0x49#8, 0x44#8⟩ [0x7F#8, 0xFF#8]) := by decide

/-- R84, a vector of V-E with distinct radius and options. -/
theorem test_decode_txRequestFrame :
    decode .sent ([0x10#8, 0xFF#8] ++ nodeBytes ++ [0xFF#8, 0xFE#8, 0x01#8, 0x02#8, 0x48#8]) =
      .ok (.txRequestFrame .sent 0xFF#8 node 0xFFFE#16 0x01#8 0x02#8 [0x48#8]) := by decide +kernel

/-- R85, the vector of R202. -/
theorem test_decode_remoteAtCommandFrame :
    decode .sent ([0x17#8, 0x03#8] ++ nodeBytes ++ [0xFF#8, 0xFE#8, 0x02#8, 0x44#8, 0x30#8, 0x04#8]) =
      .ok (.remoteAtCommandFrame .sent 0x03#8 node 0xFFFE#16 0x02#8 ⟨0x44#8, 0x30#8⟩ [0x04#8]) := by decide +kernel

/-- R88, a vector of V-D. -/
theorem test_decode_atCommandResponseFrame :
    decode .received [0x88#8, 0x01#8, 0x49#8, 0x44#8, 0x00#8, 0x12#8, 0x34#8] =
      .ok (.atCommandResponseFrame 0x01#8 ⟨0x49#8, 0x44#8⟩ 0x00#8 [0x12#8, 0x34#8]) := by decide

/-- R89, with six different fields. -/
theorem test_decode_txStatusFrame :
    decode .received [0x8B#8, 0x01#8, 0xFF#8, 0xFE#8, 0x03#8, 0x01#8, 0x02#8] =
      .ok (.txStatusFrame 0x01#8 0xFFFE#16 0x03#8 0x01#8 0x02#8) := by decide

/-- R90, the vector of R224. -/
theorem test_decode_rxIndicatorFrame :
    decode .received ([0x90#8] ++ nodeBytes ++ [0xFF#8, 0xFE#8, 0x01#8, 0x41#8, 0x42#8]) =
      .ok (.rxIndicatorFrame node 0xFFFE#16 0x01#8 [0x41#8, 0x42#8]) := by decide +kernel

/-- R91, a vector of V-D. -/
theorem test_decode_remoteCommandResponseFrame :
    decode .received ([0x97#8, 0x03#8] ++ nodeBytes ++ [0xFF#8, 0xFE#8, 0x53#8, 0x48#8, 0x00#8, 0x13#8]) =
      .ok (.remoteCommandResponseFrame 0x03#8 node 0xFFFE#16 ⟨0x53#8, 0x48#8⟩ 0x00#8 [0x13#8]) := by decide +kernel

/-- Op `0x01` and `payload` (R103, R104), `Bytes` in the form of assumption log 3. -/
theorem test_decode_encodeFrame :
    decode .hostRequest [0x01#8, 0x02#8, 0x23#8, 0x11#8] = .ok (.encodeFrame [0x23#8, 0x11#8]) := by decide

/-- Op `0x02` and `raw`. -/
theorem test_decode_decodeFrame :
    decode .hostRequest [0x02#8, 0x04#8, 0x7E#8, 0x00#8, 0x00#8, 0xFF#8] =
      .ok (.decodeFrame [0x7E#8, 0x00#8, 0x00#8, 0xFF#8]) := by decide

/-- Op `0x03`, `buf` and `atEnd`. -/
theorem test_decode_syncStep :
    decode .hostRequest [0x03#8, 0x03#8, 0x41#8, 0x7E#8, 0x00#8, 0x01#8] =
      .ok (.syncStep [0x41#8, 0x7E#8, 0x00#8] true) := by decide

/-- Op `0x04`, no operands; bits 7 to 5 of the byte are not the op's. -/
theorem test_decode_acquire :
    decode .hostRequest [0x04#8] = .ok .acquire ∧ decode .hostRequest [0xE4#8] = .ok .acquire := by decide

/-- Op `0x05`, `mark` and `resp`. -/
theorem test_decode_release :
    decode .hostRequest [0x05#8, 0x02#8, 0x02#8, 0x88#8, 0x02#8] = .ok (.release 0x02#8 [0x88#8, 0x02#8]) := by decide

/-- Op `0x06`, `mark`, `ticket` and `code`; the ticket 300 takes two bytes. -/
theorem test_decode_abandon :
    decode .hostRequest [0x06#8, 0x01#8, 0xAC#8, 0x02#8, 0x0D#8] = .ok (.abandon 0x01#8 300 0x0D#8) := by decide

/-- Op `0x07` and `ticket`. -/
theorem test_decode_awaitSlot : decode .hostRequest [0x07#8, 0x05#8] = .ok (.awaitSlot 5) := by decide

/-- Op `0x08`, `mn`, `param`, `mark` and `queued`. -/
theorem test_decode_encodeAt :
    decode .hostRequest [0x08#8, 0x49#8, 0x44#8, 0x01#8, 0x02#8, 0x7F#8, 0xFF#8, 0x02#8, 0x01#8] =
      .ok (.encodeAt ⟨0x49#8, 0x44#8⟩ (some [0x7F#8, 0xFF#8]) 0x02#8 true) := by decide

/-- Op `0x09`, `mn`, `param`, `mark`, `dest` and `options`. -/
theorem test_decode_encodeRemoteAt :
    decode .hostRequest ([0x09#8, 0x44#8, 0x30#8, 0x00#8, 0x03#8] ++ nodeBytes ++ [0x02#8]) =
      .ok (.encodeRemoteAt ⟨0x44#8, 0x30#8⟩ none 0x03#8 node 0x02#8) := by decide +kernel

/-- Op `0x0A`, `mark`, `dest`, `radius`, `options` and `data`. -/
theorem test_decode_encodeTx :
    decode .hostRequest ([0x0A#8, 0x07#8] ++ nodeBytes ++ [0x01#8, 0x02#8, 0x01#8, 0x7E#8]) =
      .ok (.encodeTx 0x07#8 node 0x01#8 0x02#8 [0x7E#8]) := by decide +kernel

/-- Op `0x0B` and `payload`. -/
theorem test_decode_decodeAtResp :
    decode .hostRequest [0x0B#8, 0x01#8, 0x88#8] = .ok (.decodeAtResp [0x88#8]) := by decide

/-- Op `0x0C` and `payload`. -/
theorem test_decode_decodeRemoteAtResp :
    decode .hostRequest [0x0C#8, 0x01#8, 0x97#8] = .ok (.decodeRemoteAtResp [0x97#8]) := by decide

/-- Op `0x0D` and `payload`. -/
theorem test_decode_decodeRx :
    decode .hostRequest [0x0D#8, 0x01#8, 0x90#8] = .ok (.decodeRx [0x90#8]) := by decide

/-- Op `0x0E` and `payload`. -/
theorem test_decode_decodeTxStatus :
    decode .hostRequest [0x0E#8, 0x01#8, 0x8B#8] = .ok (.decodeTxStatus [0x8B#8]) := by decide

/-- Op `0x0F` and `data`. -/
theorem test_decode_write :
    decode .hostRequest [0x0F#8, 0x02#8, 0x48#8, 0x69#8] = .ok (.write [0x48#8, 0x69#8]) := by decide

/-- Op `0x10`, `mn`, `param` and `queued`; an absent and an empty parameter are different operands. -/
theorem test_decode_atCommand :
    decode .hostRequest [0x10#8, 0x49#8, 0x44#8, 0x00#8, 0x00#8] = .ok (.atCommand ⟨0x49#8, 0x44#8⟩ none false) ∧
    decode .hostRequest [0x10#8, 0x49#8, 0x44#8, 0x01#8, 0x00#8, 0x01#8] =
      .ok (.atCommand ⟨0x49#8, 0x44#8⟩ (some []) true) := by decide

/-- Op `0x11`, `dest`, `options`, `mn` and `param`. -/
theorem test_decode_remoteAtCommand :
    decode .hostRequest ([0x11#8] ++ nodeBytes ++ [0x02#8, 0x44#8, 0x30#8, 0x01#8, 0x01#8, 0x04#8]) =
      .ok (.remoteAtCommand node 0x02#8 ⟨0x44#8, 0x30#8⟩ (some [0x04#8])) := by decide +kernel

/-- Op `0x12` and `nmax`. -/
theorem test_decode_read : decode .hostRequest [0x12#8, 0x0A#8] = .ok (.read 10) := by decide

/-- Op `0x13`, no operands. -/
theorem test_decode_close : decode .hostRequest [0x13#8] = .ok .close := by decide

/-- R105: the reserved codes, and a mnemonic of one byte (the last row of V-E). -/
theorem test_decode_rejects :
    decode .hostRequest [0x00#8] = .error (.reservedOp 0) ∧ decode .hostRequest [0x14#8] = .error (.reservedOp 0x14) ∧
    decode .hostRequest [0x1F#8] = .error (.reservedOp 0x1F) ∧
    decode .hostRequest [0x10#8, 0x49#8] = .error (.malformedOperands 0x10) ∧
    decode .received [] = .error .emptyPayload ∧ decode .received [0x55#8] = .error (.unassignedType 0x55#8) ∧
    decode .sent [0x88#8, 0x01#8, 0x49#8, 0x44#8, 0x00#8] = .error (.unassignedType 0x88#8) := by decide

/-- The table's words (R82, R103), read by `decodeTableWord`. -/
theorem test_table_words :
    decodeTableWord 8 0x90 = some (.rxIndicatorFrame 0#64 0#16 0#8 []) ∧
    decodeTableWord 8 0x08 = some (.atCommandFrame .received 0#8 ⟨0#8, 0#8⟩ []) ∧
    decodeTableWord 5 0x08 = some (.encodeAt ⟨0#8, 0#8⟩ none 0#8 false) ∧
    decodeTableWord 8 0x04 = some .acquire ∧ decodeTableWord 8 0x00 = none ∧ decodeTableWord 8 0x14 = none := by
  decide +kernel

/-- A placed table word is what the next step from reset runs: an ACQUIRE and a received TX Status of mark 0. -/
theorem test_placed_words :
    after (step (State.reset.withFetchWord 8 0x04)) (fun u => lastDone u == some (0, .ok (.acquired 1#8 0))) = true ∧
    after (step (State.reset.withFetchWord 8 0x8B)) (fun u => u.diag == [.unknownMark 0#8]) = true := by
  decide +kernel

/-! ## Meanings -/

/-- R270: the SEND phase of the query "ID" queues the frame of the vector of R200. -/
theorem test_atCommandFrame_sent :
    after (exec (.atCommandFrame .sent 1#8 ⟨0x49#8, 0x44#8⟩ []) (calling .send []))
      (fun u => u.txq == [(0, [0x7E#8, 0x00#8, 0x04#8, 0x08#8, 0x01#8, 0x49#8, 0x44#8, 0x69#8])] &&
        u.callAt 0 == .session .wait idCall 1#8 0) = true := by decide +kernel

/-- V-R: a produced type received is `UnknownType(0x08)`. -/
theorem test_atCommandFrame_received :
    after (exec (.atCommandFrame .received 1#8 ⟨0x49#8, 0x44#8⟩ []) (calling .send []))
      (fun u => u.diag == [.unknownType (some 0x08#8)] && u.txq == []) = true := by decide +kernel

/-- R255. -/
theorem test_queuedAtCommandFrame_received :
    after (exec (.queuedAtCommandFrame .received 1#8 ⟨0x49#8, 0x44#8⟩ []) State.reset)
      (fun u => u.diag == [.unknownType (some 0x09#8)]) = true := by decide +kernel

/-- R270's example: the SEND phase of `WRITE(48 69)` queues the frame of the vector. -/
theorem test_txRequestFrame_sent :
    after (exec (.txRequestFrame .sent 1#8 0x000000000000FFFF#64 0xFFFE#16 0#8 0#8 [0x48#8, 0x69#8])
        { calling .send [] with calls := [(0, .session .send (.write [0x48#8, 0x69#8]) 1#8 0)] })
      (fun u => u.txq == [(0, [0x7E#8, 0x00#8, 0x10#8, 0x10#8, 0x01#8, 0x00#8, 0x00#8, 0x00#8, 0x00#8, 0x00#8, 0x00#8,
        0xFF#8, 0xFF#8, 0xFF#8, 0xFE#8, 0x00#8, 0x00#8, 0x48#8, 0x69#8, 0x42#8])]) = true := by decide +kernel

/-- R280's example. -/
theorem test_remoteAtCommandFrame_sent :
    after (exec (.remoteAtCommandFrame .sent 1#8 node 0xFFFE#16 0x02#8 ⟨0x44#8, 0x30#8⟩ [0x04#8])
        { calling .send [] with
          calls := [(0, .session .send (.remoteAtCommand node 0x02#8 ⟨0x44#8, 0x30#8⟩ (some [0x04#8])) 1#8 0)] })
      (fun u => u.txq == [(0, [0x7E#8, 0x00#8, 0x10#8, 0x17#8, 0x01#8] ++ nodeBytes ++
        [0xFF#8, 0xFE#8, 0x02#8, 0x44#8, 0x30#8, 0x04#8, 0x65#8])]) = true := by decide +kernel

/-- V-R: the response of Scenario C goes to `SLOT[0]` raw, and its mark is freed. -/
theorem test_atCommandResponseFrame :
    after (exec (.atCommandResponseFrame 1#8 ⟨0x49#8, 0x44#8⟩ 0x00#8 []) (calling .wait []))
      (fun u => u.slotAt 0 == .done [0x88#8, 0x01#8, 0x49#8, 0x44#8, 0x00#8] && u.poolAt 1#8 == none) = true := by
  decide +kernel

/-- V-R: a TX Status with mark 7 free is `UnknownMark(7)`. -/
theorem test_txStatusFrame :
    after (exec (.txStatusFrame 7#8 0xFFFE#16 0#8 0#8 0#8) State.reset) (fun u => u.diag == [.unknownMark 7#8]) = true := by
  decide +kernel

/-- R251: the data bytes alone reach `RDBUF`; what does not fit `RDBUF_CAP` is dropped whole. -/
theorem test_rxIndicatorFrame :
    after (exec (.rxIndicatorFrame node 0xFFFE#16 0x01#8 [0x01#8, 0x02#8]) { State.reset with rdbuf := [0x09#8] })
      (fun u => u.rdbuf == [0x09#8, 0x01#8, 0x02#8]) = true ∧
    after (exec (.rxIndicatorFrame node 0xFFFE#16 0x01#8 [0x01#8, 0x02#8])
        { State.reset with rdbuf := [0x09#8], cfg := { Config.defaults with rdbufCap := some 2 } })
      (fun u => u.rdbuf == [0x09#8] && u.diag == [.rxOverflow 2]) = true := by decide +kernel

/-- V-R: a Remote Command Response goes to `SLOT[0]` raw. -/
theorem test_remoteCommandResponseFrame :
    after (exec (.remoteCommandResponseFrame 1#8 node 0xFFFE#16 ⟨0x44#8, 0x30#8⟩ 0x00#8 []) (calling .wait []))
      (fun u => u.slotAt 0 == .done ([0x97#8, 0x01#8] ++ nodeBytes ++ [0xFF#8, 0xFE#8, 0x44#8, 0x30#8, 0x00#8])) =
      true := by decide +kernel

/-- Vectors V-F1: Scenario A and the sum that wraps. -/
theorem test_encodeFrame :
    encodeFrameOp [0x23#8, 0x11#8] = .ok frameA ∧
    encodeFrameOp [0x80#8, 0x80#8] = .ok [0x7E#8, 0x00#8, 0x02#8, 0x80#8, 0x80#8, 0xFF#8] ∧
    encodeFrameOp [] = .ok [0x7E#8, 0x00#8, 0x00#8, 0xFF#8] := by decide

/-- Vectors V-F2. -/
theorem test_decodeFrame :
    decodeFrameOp [] = .error .invalidDelimiter ∧ decodeFrameOp [0x7E#8, 0x00#8, 0x00#8] = .error (.lengthMismatch 3) ∧
    decodeFrameOp (frameA ++ [0x00#8]) = .error (.lengthMismatch 7) ∧
    decodeFrameOp [0x7E#8, 0x00#8, 0x02#8, 0x23#8, 0x11#8, 0xCA#8] = .error (.checksumMismatch 0xCA#8 0xCB#8) ∧
    decodeFrameOp frameA = .ok [0x23#8, 0x11#8] := by decide

/-- Vectors V-S1 in HUNT mode. -/
theorem test_syncStep_hunt :
    syncStepOp .hunt [0x41#8, 0x7E#8, 0x00#8] true = ⟨2, none, some .truncated⟩ ∧
    syncStepOp .hunt ([0x7E#8, 0x00#8, 0x01#8] ++ frameA) false = ⟨1, none, some .badChecksum⟩ ∧
    syncStepOp .hunt ([0x41#8, 0x42#8] ++ frameA ++ [0x99#8]) false = ⟨8, some frameA, none⟩ := by decide

/-- Vectors V-S1 in LITERAL mode. -/
theorem test_syncStep_literal :
    syncStepOp .literal [0x41#8, 0x7E#8, 0x00#8] true = ⟨1, none, none⟩ ∧
    syncStepOp .literal ([0x7E#8, 0x00#8, 0x01#8] ++ frameA) false =
      ⟨5, some [0x7E#8, 0x00#8, 0x01#8, 0x7E#8, 0x00#8], none⟩ ∧
    syncStepOp .literal [0x7E#8, 0xFF#8, 0xFF#8, 0x01#8, 0x02#8, 0x03#8] true = ⟨0, none, none⟩ := by decide

/-- R170's example: after mark 1 is freed the next ACQUIRE returns `(1, 2)`. -/
theorem test_acquire :
    after (exec .acquire ((State.reset.reserve 1#8).reserve 2#8 |>.setPool 1#8 none))
      (fun u => lastDone u == some (0, .ok (.acquired 1#8 2)) && u.slotAt 2 == .waiting && u.nextTicket == 3) = true := by
  decide +kernel

/-- V-P1 and V-P3. -/
theorem test_release :
    after (exec (.release 2#8 [0x88#8, 0x02#8]) ((State.reset.reserve 1#8).reserve 2#8))
      (fun u => u.poolAt 2#8 == none && u.slotAt 1 == .done [0x88#8, 0x02#8] && u.slotAt 0 == .waiting) = true ∧
    after (exec (.release 9#8 [0x01#8]) State.reset)
      (fun u => lastDone u == some (0, .err (.unknownMark 9#8)) && u.diag == [.unknownMark 9#8]) = true := by
  decide +kernel

/-- V-P4 and V-P5. -/
theorem test_abandon :
    after (exec (.abandon 1#8 0 0x0D#8) (State.reset.reserve 1#8))
      (fun u => u.poolAt 1#8 == none && u.slotAt 0 == .failed .timeout) = true ∧
    after (exec (.abandon 1#8 0 0x11#8) { State.reset.setPool 1#8 (some 3) with nextTicket := 4 })
      (fun u => u.poolAt 1#8 == some 3 && lastDone u == some (0, .ok .unit)) = true := by decide +kernel

/-- V-P4: the stored error is raised once, a second AWAIT is `InvalidRequest`. -/
theorem test_awaitSlot :
    after (exec (.awaitSlot 0) { State.reset with slots := [(0, .failed .timeout)], nextTicket := 1 })
      (fun u => lastDone u == some (0, .err .timeout) && u.slotAt 0 == .retired) = true ∧
    after (exec (.awaitSlot 0) { State.reset with slots := [(0, .retired)], nextTicket := 1 })
      (fun u => lastDone u == some (0, .err .invalidRequest)) = true := by decide +kernel

/-- A vector of V-E. -/
theorem test_encodeAt :
    encodeAtOp ⟨0x49#8, 0x44#8⟩ (some [0x7F#8, 0xFF#8]) 2#8 true =
      [0x09#8, 0x02#8, 0x49#8, 0x44#8, 0x7F#8, 0xFF#8] := by decide

/-- A vector of V-E: "SH" to the broadcast address. -/
theorem test_encodeRemoteAt :
    encodeRemoteAtOp ⟨0x53#8, 0x48#8⟩ none 5#8 Config.broadcast64 0x00#8 =
      [0x17#8, 0x05#8, 0x00#8, 0x00#8, 0x00#8, 0x00#8, 0x00#8, 0x00#8, 0xFF#8, 0xFF#8, 0xFF#8, 0xFE#8, 0x00#8, 0x53#8,
        0x48#8] := by decide

/-- A vector of V-E. -/
theorem test_encodeTx :
    encodeTxOp 0xFF#8 node 0x01#8 0x01#8 [] = [0x10#8, 0xFF#8] ++ nodeBytes ++ [0xFF#8, 0xFE#8, 0x01#8, 0x01#8] := by
  decide

/-- Vectors V-D: a status of 4 or more is `Error` with its raw value, and the header is 5 bytes. -/
theorem test_decodeAtResp :
    decodeAtRespOp [0x88#8, 0x01#8, 0x49#8, 0x44#8, 0x07#8] = .ok ⟨1#8, ⟨0x49#8, 0x44#8⟩, 0x07#8, .error, []⟩ ∧
    decodeAtRespOp [0x88#8, 0x01#8, 0x49#8, 0x44#8] = .error (.decodeShort 4) := by decide

/-- Vectors V-D. -/
theorem test_decodeRemoteAtResp :
    decodeRemoteAtRespOp ([0x97#8, 0x03#8] ++ nodeBytes ++ [0xFF#8, 0xFE#8, 0x44#8, 0x30#8, 0x00#8]) =
      .ok ⟨3#8, node, 0xFFFE#16, ⟨0x44#8, 0x30#8⟩, 0x00#8, .ok, []⟩ ∧
    decodeRemoteAtRespOp [0x88#8, 0x01#8, 0x49#8, 0x44#8, 0x00#8] = .error .decodeWrongType := by decide +kernel

/-- Vectors V-D: the broadcast flag is bit 1, and the header is 12 bytes. -/
theorem test_decodeRx :
    decodeRxOp ([0x90#8] ++ nodeBytes ++ [0xFF#8, 0xFE#8, 0x02#8]) = .ok ⟨node, 0xFFFE#16, false, true, 0x02#8, []⟩ ∧
    decodeRxOp ([0x90#8] ++ List.replicate 8 0#8 ++ [0xFF#8, 0xFE#8]) = .error (.decodeShort 11) := by decide +kernel

/-- Vectors V-D. -/
theorem test_decodeTxStatus :
    decodeTxStatusOp [0x8B#8, 0x01#8, 0xFF#8, 0xFE#8, 0x00#8, 0x02#8, 0x02#8] =
      .ok ⟨1#8, 0xFFFE#16, 0#8, 0x02#8, .ccaFailure, true⟩ ∧
    decodeTxStatusOp [0x8B#8, 0x01#8, 0xFF#8, 0xFE#8, 0x00#8, 0x00#8] = .error (.decodeWrongLength 6) := by decide

/-- P1, step 1 and V-W: START of WRITE takes mark 1 and ticket 0. -/
theorem test_write :
    after (exec (.write [0x48#8, 0x69#8]) State.reset)
      (fun u => u.callAt 0 == .session .send (.write [0x48#8, 0x69#8]) 1#8 0 && u.poolAt 1#8 == some 0 &&
        u.slotAt 0 == .waiting && u.nextTicket == 1 && u.txq == []) = true := by decide +kernel

/-- R275 after the end of the session (the last step of a row of V-W). -/
theorem test_atCommand :
    after (exec (.atCommand ⟨0x49#8, 0x44#8⟩ none false) (closed []))
      (fun u => lastDone u == some (0, .err (.transportClosed .readEOF)) && u.nextTicket == 0) = true := by
  decide +kernel

/-- R280. -/
theorem test_remoteAtCommand :
    after (exec (.remoteAtCommand node 0x02#8 ⟨0x44#8, 0x30#8⟩ (some [0x04#8])) State.reset)
      (fun u => u.callAt 0 == .session .send (.remoteAtCommand node 0x02#8 ⟨0x44#8, 0x30#8⟩ (some [0x04#8])) 1#8 0) =
      true := by decide +kernel

/-- R285's example, and a READ that is held. -/
theorem test_read :
    after (exec (.read 1) { State.reset with rdbuf := [0x41#8, 0x42#8] })
      (fun u => lastDone u == some (0, .ok (.bytes [0x41#8])) && u.rdbuf == [0x42#8]) = true ∧
    after (exec (.read 4) State.reset) (fun u => u.callAt 0 == .reading 4 && u.completions == []) = true := by
  decide +kernel

/-- V-W: CLOSE, then a second CLOSE. -/
theorem test_close :
    after (exec .close State.reset) (fun u => u.sess == .closing .localClose && u.closeCtl &&
      lastDone u == some (0, .ok .unit) && u.diag == [.transportEnded .localClose]) = true ∧
    after (exec .close (closing [])) (fun u => lastDone u == some (0, .err (.transportClosed .localClose))) = true := by
  decide +kernel

/-! ## Engine steps -/

/-- P3 in HUNT mode: the SCAN that finds the RX frame behind two noise bytes. -/
theorem test_scan_dispatches :
    after (step { given [.scan] with syncbuf := [0x00#8, 0x01#8, 0x7E#8, 0x00#8, 0x0E#8, 0x90#8] ++ nodeBytes ++
        [0xFF#8, 0xFE#8, 0x01#8, 0x41#8, 0x42#8, 0xE3#8] })
      (fun u => u.rdbuf == [0x41#8, 0x42#8] && u.diag == [.noiseDiscarded 2] && u.syncbuf == []) = true := by
  decide +kernel

/-- P3 in LITERAL mode: the bogus candidate fails DECODE_FRAME. -/
theorem test_scan_literal_bad_frame :
    after (step { given [.scan] with
        syncbuf := [0x41#8, 0x7E#8, 0x00#8, 0x01#8, 0x7E#8, 0x00#8, 0x0E#8]
        cfg := { Config.defaults with syncMode := .literal } })
      (fun u => u.diag == [.noiseDiscarded 1, .badFrame (.checksumMismatch 0x00#8 0x81#8)] && u.syncbuf == [0x0E#8]) =
      true := by decide +kernel

/-- P4, step 7: FINALIZE frees the marks, fails their slots and discards `TXQ`. -/
theorem test_finalize :
    after (step { (State.reset.reserve 1#8).reserve 2#8 with
        sess := .closing .localClose, closeCtl := true, txq := [(1, frameA)], inputs := [.finalize] })
      (fun u => u.sess == .closed .localClose && u.diag == [.txDiscarded 1] && u.poolAt 2#8 == none &&
        u.slotAt 0 == .failed (.transportClosed .localClose) && u.slotAt 1 == .failed (.transportClosed .localClose)) =
      true := by decide +kernel

/-- V-W: a write that fails after 5 bytes. -/
theorem test_txSend_fails :
    after (step { given [.txSend (.fail 5)] with txq := [(0, frameA)] })
      (fun u => u.wireOut == [0x7E#8, 0x00#8, 0x02#8, 0x23#8, 0x11#8] && u.sess == .closing .writeError &&
        u.diag == [.transportEnded .writeError] && u.txq == []) = true := by decide +kernel

/-- V-W: TIMEOUT of a call in WAIT takes its frame out of `TXQ` and frees its mark. -/
theorem test_timeout :
    after (step { calling .wait [.timeout 0] with txq := [(0, frameA), (7, frameA)] })
      (fun u => u.slotAt 0 == .failed .timeout && u.poolAt 1#8 == none && u.txq == [(7, frameA)]) = true := by
  decide +kernel

/-- P1, step 5: the WAIT phase of Scenario C completes with no data. -/
theorem test_wait_completes :
    after (step (answeredCall (.done [0x88#8, 0x01#8, 0x49#8, 0x44#8, 0x00#8]) [.phase 0]))
      (fun u => lastDone u == some (0, .ok (.bytes [])) && u.slotAt 0 == .retired && u.callAt 0 == .idle) = true := by
  decide +kernel

/-- P5, step 7: the late response of another type. -/
theorem test_wait_type_mismatch :
    finishCall (.write [0x48#8, 0x69#8]) (.ok [0x88#8, 0x01#8, 0x49#8, 0x44#8, 0x00#8]) =
      .err (.responseTypeMismatch (some 0x88#8)) := by decide

/-! ## Witnesses: the hypotheses of the statements, met together -/

/-- The payload of Scenario C's response. -/
def respC : Bytes := [0x88#8, 0x01#8, 0x49#8, 0x44#8, 0x00#8]

theorem witness_EncodeOfDecodedPayload :
    decode .received respC = .ok (.atCommandResponseFrame 1#8 ⟨0x49#8, 0x44#8⟩ 0x00#8 []) := by decide

theorem witness_MalformedRequestsAreInvalid_codes :
    opOf 0xE0#8 = 0x00 ∧ 0x14 ≤ opOf 0x14#8 ∧ 0x14 ≤ opOf 0xFF#8 ∧ ¬ 0x14 ≤ opOf 0x13#8 := by decide

theorem witness_MalformedRequestsAreInvalid_record :
    (given [.request 3 [0x14#8]]).callAt 3 = .idle ∧ decode .hostRequest [0x14#8] = .error (.reservedOp 0x14) ∧
    decode .hostRequest [] = .error .emptyRequest := by decide

theorem witness_MalformedRequestsAreInvalid_abandon :
    errorCodeOk 0x00#8 = false ∧ errorCodeOk 0x12#8 = false ∧ errorCodeOk 0xFF#8 = false := by decide

theorem witness_StepRunsTheDecodedInstruction_request :
    (given [.request 0 [0x04#8]]).inputs = .request 0 [0x04#8] :: [] ∧
    (given [.request 0 [0x04#8]]).callAt 0 = .idle ∧ decode .hostRequest [0x04#8] = .ok .acquire := by decide

theorem witness_StepRunsTheDecodedInstruction_send :
    (calling .send [.phase 0]).inputs = .phase 0 :: [] ∧
    (calling .send [.phase 0]).callAt 0 = .session .send idCall 1#8 0 ∧
    decode .sent (callPayload (calling .send [.phase 0]).cfg idCall 1#8) =
      .ok (.atCommandFrame .sent 1#8 ⟨0x49#8, 0x44#8⟩ []) := by decide +kernel

/-- The framed response of Scenario C behind one noise byte, to be scanned. -/
def scanC : State :=
  { calling .wait [.scan] with
    syncbuf := [0x41#8, 0x7E#8, 0x00#8, 0x05#8, 0x88#8, 0x01#8, 0x49#8, 0x44#8, 0x00#8, 0xE9#8] }

/-- What the synchronizer answers there. -/
def scanCResult : SyncResult :=
  ⟨10, some [0x7E#8, 0x00#8, 0x05#8, 0x88#8, 0x01#8, 0x49#8, 0x44#8, 0x00#8, 0xE9#8], none⟩

theorem witness_StepRunsTheDecodedInstruction_scan :
    scanC.inputs = .scan :: [] ∧ isClosed scanC.sess = false ∧
    syncStepOp scanC.cfg.syncMode scanC.syncbuf scanC.sess.atEnd = scanCResult ∧
    decodeFrameOp (scanCResult.frame.getD []) = .ok respC ∧
    decode .received respC = .ok (.atCommandResponseFrame 1#8 ⟨0x49#8, 0x44#8⟩ 0x00#8 []) := by decide +kernel

theorem witness_ChecksumLaws :
    (([0x80#8, 0x80#8] : Bytes).map BitVec.toNat).sum % 256 = 0 ∧ (([0xFF#8] : Bytes).map BitVec.toNat).sum % 256 = 255 ∧
    0 < ([0x23#8] : Bytes).length ∧ 1 < ([0x23#8, 0x11#8] : Bytes).length ∧ (0xFF#8 : Byte) ≠ 0#8 ∧
    (0xDC#8 : Byte) = cks [0x23#8] ∧ (0 : Nat) ≠ 1 := by decide

theorem witness_DecodeOfEncodedFrame :
    ([] : Bytes).length ≤ 65535 ∧ (List.replicate 65535 (0#8 : Byte)).length ≤ 65535 := by
  simp only [List.length_replicate, List.length_nil]
  decide

theorem witness_SingleByteCorruptionIsDetected :
    encodeFrameOp [0x23#8, 0x11#8] = .ok frameA ∧ 5 < frameA.length ∧ 0x7F#8 ≠ byteAt frameA 0 ∧
    0x01#8 ≠ byteAt frameA 1 ∧ 0x03#8 ≠ byteAt frameA 2 ∧ 0x22#8 ≠ byteAt frameA 3 ∧ 0xCA#8 ≠ byteAt frameA 5 := by
  decide

theorem witness_SynchronizerResultShape :
    syncStepOp .hunt frameA false = ⟨6, some frameA, none⟩ ∧ syncStepOp .literal frameA true = ⟨6, some frameA, none⟩ := by
  decide

theorem witness_LiteralModeTakesTheFirstCandidate :
    (0x7E#8 : Byte) ∉ ([] : Bytes) ∧ (0x7E#8 : Byte) ∉ ([0x41#8, 0x42#8] : Bytes) := by decide

theorem witness_HuntModeTakesTheFirstValidCandidate :
    (0x7E#8 : Byte) ∉ ([0x41#8] : Bytes) ∧ (syncStepOp .hunt ([0x41#8] ++ frameA) true).frame = some frameA := by decide

theorem witness_SynchronizerMakesProgress :
    ¬ ([0x41#8] : Bytes) = [] ∧ ([0x41#8] : Bytes).head? ≠ some 0x7E#8 ∧
    drainBuffer .literal 3 [0x41#8, 0x7E#8, 0x00#8] = [0x7E#8, 0x00#8] := by decide

theorem witness_ChunkBoundariesDoNotMatter :
    syncStepOp .literal frameA false = ⟨6, some frameA, none⟩ ∧ (some frameA : Option Bytes) ≠ none ∧
    syncStepOp .hunt [0x7E#8, 0x00#8, 0x00#8, 0x00#8] false = ⟨1, none, some .badChecksum⟩ ∧
    syncStepOp .hunt [0x41#8, 0x7E#8, 0x00#8] false = ⟨1, none, none⟩ := by decide

theorem witness_FramesAreFoundWhole :
    encodeFrameOp [0x7E#8] = .ok [0x7E#8, 0x00#8, 0x01#8, 0x7E#8, 0x81#8] ∧
    encodeFrameOp [] = .ok [0x7E#8, 0x00#8, 0x00#8, 0xFF#8] := by decide

/-- The stream of program P3: rejected by a bad checksum; and by the end of the stream. -/
theorem witness_HuntModeResynchronizes :
    (0x7E#8 : Byte) ∉ ([0x41#8] : Bytes) ∧ (0x7E#8 : Byte) ∉ ([0x00#8, 0x01#8] : Bytes) ∧
    encodeFrameOp [0x23#8, 0x11#8] = .ok frameA ∧
    syncStepOp .hunt ([0x41#8] ++ 0x7E#8 :: ([0x00#8, 0x01#8] ++ frameA ++ [])) false = ⟨2, none, some .badChecksum⟩ ∧
    (0x7E#8 : Byte) ∉ ([0xFF#8] : Bytes) ∧
    syncStepOp .hunt ([0x41#8] ++ 0x7E#8 :: ([0xFF#8] ++ frameA ++ [])) true = ⟨2, none, some .truncated⟩ := by decide

theorem witness_SyncStepRequestIsPure : State.reset.cfg.syncMode = .hunt := by decide

theorem witness_AcquireTakesTheLowestFreeMark_ended :
    (closing []).sess.ended = some .localClose ∧ (closed []).sess.ended = some .readEOF := by decide

theorem fullPool_poolAt (m : Mark) : fullPool.poolAt m = some 0 := by simp [fullPool, State.poolAt]

theorem witness_AcquireTakesTheLowestFreeMark_full : fullPool.sess = .isOpen ∧ allReserved fullPool :=
  ⟨rfl, fun m _ => by simp [fullPool_poolAt]⟩

/-- Every mark but 255 is held. -/
def oneFree : State := fullPool.setPool 255#8 none

theorem oneFree_poolAt (m : Mark) : oneFree.poolAt m = if m = 255#8 then none else some 0 := by
  rw [oneFree, State.poolAt_setPool, fullPool_poolAt]

theorem reset_poolAt (m : Mark) : State.reset.poolAt m = none := by simp [State.reset, State.fresh, State.poolAt]

/-- Mark 1 of an empty pool, and mark 255 when it alone is free. -/
theorem witness_AcquireTakesTheLowestFreeMark_free :
    State.reset.sess = .isOpen ∧ lowestFree State.reset 1#8 ∧ oneFree.sess = .isOpen ∧ lowestFree oneFree 255#8 := by
  refine ⟨rfl, ⟨by decide, reset_poolAt _, ?_⟩, rfl, ⟨by decide, by simp [oneFree_poolAt], ?_⟩⟩
  · decide
  · intro m _ h
    rw [oneFree_poolAt, if_neg (by rintro rfl; exact absurd h (by decide))]
    simp

theorem witness_PoolCapacity_empty :
    State.reset.sess = .isOpen ∧ (∀ m : Mark, State.reset.poolAt m = none) ∧ 0 ≤ 255 ∧ 255 ≤ 255 :=
  ⟨rfl, reset_poolAt, by decide⟩

theorem witness_PoolCapacity_one :
    oneFree.sess = .isOpen ∧ (255#8 : Mark) ≠ 0#8 ∧ oneFree.poolAt 255#8 = none ∧
    ∀ m' : Mark, m' ≠ 0#8 → m' ≠ 255#8 → oneFree.poolAt m' ≠ none :=
  ⟨rfl, by decide, by simp [oneFree_poolAt], fun m _ h => by simp [oneFree_poolAt, h]⟩

theorem witness_ReleaseDeliversToTheHolder :
    (calling .wait []).poolAt 1#8 = some 0 ∧ (calling .wait []).poolAt 0#8 = none ∧
    (calling .wait []).poolAt 255#8 = none := by decide +kernel

theorem witness_AbandonFreesOnlyItsOwnAllocation :
    errorCodeOk 0x01#8 = true ∧ errorCodeOk 0x11#8 = true ∧ (calling .wait []).poolAt 1#8 = some 0 ∧
    (calling .wait []).poolAt 1#8 ≠ some 1 ∧ (calling .wait []).poolAt 2#8 ≠ some 0 := by decide +kernel

theorem witness_AwaitTakesTheResultOnce_refused :
    State.reset.slotAt 0 = .unused ∧ (answeredCall .retired []).slotAt 0 = .retired := by decide

theorem witness_AwaitTakesTheResultOnce_taken :
    (calling .wait []).slotAt 0 = .waiting ∧ (answeredCall (.done []) []).slotAt 0 = .done [] ∧
    (answeredCall (.failed .timeout) []).slotAt 0 = .failed .timeout := by decide +kernel

/-- Caller 2 held in AWAIT of ticket 0, whose slot is in this state. -/
def awaiting (v : SlotState) : State :=
  { State.reset with nextTicket := 1, slots := [(0, v)], calls := [(2, .awaiting 0)], inputs := [.phase 2] }

theorem witness_AwaitTakesTheResultOnce_held :
    (awaiting .waiting).inputs = .phase 2 :: [] ∧ (awaiting .waiting).callAt 2 = .awaiting 0 ∧
    (awaiting .waiting).slotAt 0 = .waiting ∧ (awaiting (.done respC)).slotAt 0 = .done respC ∧
    (awaiting (.failed .timeout)).callAt 2 = .awaiting 0 := by decide

theorem witness_PoolRequestsRunInEverySession :
    ∃ u : State, exec (.release 1#8 respC) (calling .wait []) = .next u ∧ (u.slotAt 0 == .done respC) = true :=
  exists_of_after (by decide +kernel)

theorem witness_PoolRequestsRunInEverySession_ended :
    (closing []).sess = .closing .localClose ∧ (closed []).sess = .closed .readEOF := by decide

theorem witness_EncoderLengthLimits :
    State.reset.sess = .isOpen ∧ 65521 < (List.replicate 65522 (0#8 : Byte)).length ∧
    65531 < (List.replicate 65532 (0#8 : Byte)).length ∧ 65520 < (List.replicate 65521 (0#8 : Byte)).length := by
  simp only [List.length_replicate]
  decide

theorem witness_DecoderLaws :
    decodeAtRespOp [] = .error (.decodeShort 0) ∧ decodeRemoteAtRespOp [] = .error .decodeWrongType ∧
    decodeRxOp [0x90#8] = .error (.decodeShort 1) ∧ decodeTxStatusOp [0x8B#8] = .error (.decodeWrongLength 1) := by decide

theorem witness_RouterAgreesWithTheFrames :
    decode .received [0x8B#8, 0x01#8, 0xFF#8, 0xFE#8, 0x03#8, 0x01#8, 0x00#8] =
      .ok (.txStatusFrame 0x01#8 0xFFFE#16 0x03#8 0x01#8 0x00#8) := by decide

theorem witness_ResponseFramesReleaseTheirMark :
    (calling .wait []).poolAt 1#8 = some 0 ∧ (calling .wait []).poolAt 2#8 = none := by decide +kernel

/-- The payloads at the boundaries of the three decoders' lengths. -/
theorem witness_ResponseFramesReleaseTheirMark_refused :
    ([0x88#8, 0x01#8, 0x49#8, 0x44#8] : Bytes).head? = some 0x88#8 ∧
    ([0x88#8, 0x01#8, 0x49#8, 0x44#8] : Bytes).length < 5 ∧
    (0x8B#8 :: List.replicate 5 (0#8 : Byte)).length ≠ 7 ∧ (0x8B#8 :: List.replicate 7 (0#8 : Byte)).length ≠ 7 ∧
    (0x8B#8 :: List.replicate 7 (0#8 : Byte)).head? = some 0x8B#8 ∧
    (0x97#8 :: List.replicate 13 (0#8 : Byte)).length < 15 ∧
    (0x97#8 :: List.replicate 13 (0#8 : Byte)).head? = some 0x97#8 := by decide

theorem witness_RxIndicatorFillsTheReadBuffer :
    State.reset.cfg.rdbufCap = none ∧
    (State.fresh { Config.defaults with rdbufCap := some 1 } [] 0).cfg.rdbufCap = some 1 ∧
    ([0x90#8] : Bytes).head? = some 0x90#8 ∧ (0x90#8 :: List.replicate 10 (0#8 : Byte)).length < 12 := by decide

theorem witness_UnrecognizedPayloadsAreDropped :
    ([] : Bytes).head? ≠ some 0x88#8 ∧ ([] : Bytes).head? ≠ some 0x97#8 ∧ ([0x55#8] : Bytes).head? ≠ some 0x8B#8 ∧
    ([0x08#8] : Bytes).head? ≠ some 0x90#8 := by decide

/-- Caller 0 in the SEND phase of this call, the session open. -/
def sending (op : Call) : State := { calling .send [] with calls := [(0, .session .send op 1#8 0)] }

/-- Each of the four calls in SEND, with a frame within the length field. -/
theorem witness_SentFramesAreQueued :
    (sending idCall).callAt (sending idCall).reqCaller = .session .send idCall 1#8 0 ∧ (sending idCall).sess = .isOpen ∧
    (sending (.atCommand ⟨0x49#8, 0x44#8⟩ none true)).callAt 0 =
      .session .send (.atCommand ⟨0x49#8, 0x44#8⟩ none true) 1#8 0 ∧
    (sending (.write [])).callAt 0 = .session .send (.write []) 1#8 0 ∧
    (sending (.remoteAtCommand node 0#8 ⟨0x49#8, 0x44#8⟩ none)).callAt 0 =
      .session .send (.remoteAtCommand node 0#8 ⟨0x49#8, 0x44#8⟩ none) 1#8 0 ∧
    encodeFrameOp (encode (.atCommandFrame .sent 1#8 ⟨0x49#8, 0x44#8⟩ [])).2 =
      .ok [0x7E#8, 0x00#8, 0x04#8, 0x08#8, 0x01#8, 0x49#8, 0x44#8, 0x69#8] ∧
    (encodeFrameOp (encode (.queuedAtCommandFrame .sent 1#8 ⟨0x49#8, 0x44#8⟩ [])).2).isOk ∧
    (encodeFrameOp (encode (.txRequestFrame .sent 1#8 node 0xFFFE#16 0#8 0#8 [])).2).isOk ∧
    (encodeFrameOp (encode (.remoteAtCommandFrame .sent 1#8 node 0xFFFE#16 0#8 ⟨0x49#8, 0x44#8⟩ [])).2).isOk := by
  decide +kernel

theorem witness_SentFramesAreQueued_ended :
    ({ calling .send [] with sess := .closing .readEOF } : State).callAt 0 = .session .send idCall 1#8 0 ∧
    ({ calling .send [] with sess := .closing .readEOF } : State).sess ≠ .isOpen := by decide +kernel

theorem witness_SessionCallsStart :
    State.reset.sess = .isOpen ∧ (List.replicate 65521 (0#8 : Byte)).length ≤ 65521 ∧
    65521 < (List.replicate 65522 (0#8 : Byte)).length ∧ lowestFree State.reset 1#8 ∧ fullPool.sess = .isOpen ∧
    allReserved fullPool ∧ (closed []).sess.ended = some .readEOF := by
  simp only [List.length_replicate]
  exact ⟨rfl, by decide, by decide, witness_AcquireTakesTheLowestFreeMark_free.2.1, rfl,
    witness_AcquireTakesTheLowestFreeMark_full.2, rfl⟩

theorem witness_SessionCallsFinish :
    (answeredCall (.done respC) [.phase 0]).inputs = .phase 0 :: [] ∧
    (answeredCall (.done respC) [.phase 0]).callAt 0 = .session .wait idCall 1#8 0 ∧
    (answeredCall (.done respC) [.phase 0]).slotAt 0 = .done respC ∧
    (answeredCall (.done respC) [.phase 0]).poolAt 1#8 ≠ some 0 ∧
    (answeredCall (.failed .timeout) [.phase 0]).slotAt 0 = .failed .timeout ∧
    (calling .wait [.phase 0]).callAt 0 = .session .wait idCall 1#8 0 ∧
    (calling .wait [.phase 0]).slotAt 0 = .waiting := by decide +kernel

theorem pool_answeredCall (m : Mark) : (answeredCall (.done respC) [.phase 0]).poolAt m = none := reset_poolAt m

/-- The state of a call that has its response meets the pool invariants. -/
theorem poolInv_answeredCall : PoolInv (answeredCall (.done respC) [.phase 0]) where
  markZero := by decide +kernel
  injective := by
    intro m m' t h
    simp [pool_answeredCall] at h
  waiting := by
    intro t
    constructor
    · intro h
      rcases t with _ | t <;> simp [answeredCall, State.slotAt, tableGet] at h
    · rintro ⟨m, h⟩
      simp [pool_answeredCall] at h
  poolTickets := by
    intro m t h
    simp [pool_answeredCall] at h
  txqTickets := by intro e h; exact absurd h (by simp [answeredCall, State.reset, State.fresh])
  callTickets := by
    intro c t h
    rcases c with _ | c
    · simp [answeredCall, State.callAt, tableGet, CallState.ticket] at h
      subst h; decide
    · simp [answeredCall, State.callAt, tableGet, CallState.ticket] at h
  capacity := by decide +kernel
  unused := by
    intro t
    rcases t with _ | t <;> simp [answeredCall, State.slotAt, tableGet]

theorem witness_FinishedCallsHoldNoMark :
    PoolInv (answeredCall (.done respC) [.phase 0]) ∧
    (answeredCall (.done respC) [.phase 0]).callAt 0 = .session .wait idCall 1#8 0 ∧
    ∃ u : State, step (answeredCall (.done respC) [.phase 0]) = .next u ∧ (u.callAt 0 == .idle) = true :=
  ⟨poolInv_answeredCall, by decide, exists_of_after (by decide +kernel)⟩

/-- READ's clauses: buffered bytes, an ended session, and a caller held in TAKE. -/
theorem witness_ReadTakesFromTheFront :
    (1 : Nat) ≠ 0 ∧ ({ State.reset with rdbuf := [0x41#8] } : State).rdbuf ≠ [] ∧ (closed []).rdbuf = [] ∧
    (closed []).sess = .closed .readEOF ∧ isClosed (closing []).sess = false ∧ (closing []).rdbuf = [] := by decide

/-- Caller 1 held in the TAKE phase of READ, in this session with these bytes in `RDBUF`. -/
def taking (x : SessionStatus) (b : Bytes) : State :=
  { given [.phase 1] with sess := x, rdbuf := b, calls := [(1, .reading 4)] }

theorem witness_ReadTakesFromTheFront_held :
    (taking .isOpen []).inputs = .phase 1 :: [] ∧ (taking .isOpen []).callAt 1 = .reading 4 ∧
    (taking .isOpen []).rdbuf = [] ∧ isClosed (taking (.closing .readEOF) []).sess = false ∧
    (taking .isOpen [0x41#8]).rdbuf ≠ [] ∧ (taking (.closed .readEOF) []).sess = .closed .readEOF := by decide

theorem witness_CloseEntersTheFatalPath :
    State.reset.sess = .isOpen ∧ (closing []).sess = .closing .localClose ∧ (closed []).sess = .closed .readEOF := by
  decide

theorem witness_IngestAppendsTheChunk :
    (given [.chunk frameA]).inputs = .chunk frameA :: [] ∧ (given [.chunk frameA]).sess = .isOpen ∧
    (closing [.chunk frameA]).sess ≠ .isOpen := by decide

/-- SCAN's clauses: not enabled, no frame, a frame that decodes, and in LITERAL mode a frame that does not. -/
theorem witness_ScanDispatchesTheFrame :
    syncStepOp .hunt (given [.scan]).syncbuf false = ⟨0, none, none⟩ ∧ isClosed (closed [.scan]).sess = true ∧
    syncStepOp .hunt [0x41#8] false = ⟨1, none, none⟩ ∧ isClosed scanC.sess = false ∧
    syncStepOp scanC.cfg.syncMode scanC.syncbuf scanC.sess.atEnd = scanCResult ∧
    decodeFrameOp (scanCResult.frame.getD []) = .ok respC ∧
    syncStepOp .literal [0x7E#8, 0x00#8, 0x00#8, 0x00#8] false = ⟨4, some [0x7E#8, 0x00#8, 0x00#8, 0x00#8], none⟩ ∧
    decodeFrameOp [0x7E#8, 0x00#8, 0x00#8, 0x00#8] = .error (.checksumMismatch 0x00#8 0xFF#8) := by decide +kernel

/-- FINALIZE's clauses; the last is LITERAL mode's residue at the end of the stream. -/
theorem witness_FinalizeEndsTheSession :
    (∀ r, (given [.finalize]).sess ≠ .closing r) ∧ (closing [.finalize]).sess = .closing .localClose ∧
    (syncStepOp (closing []).cfg.syncMode (closing []).syncbuf true).consumed = 0 ∧
    (syncStepOp (closing []).cfg.syncMode (closing []).syncbuf true).frame = none ∧
    0 < (syncStepOp .hunt [0x7E#8] true).consumed ∧ (syncStepOp .literal [0x7E#8] true).consumed = 0 := by
  refine ⟨?_, by decide⟩
  intro r
  simp [given, State.reset, State.fresh]

theorem witness_FinalizeEndsTheSession_slots :
    (∃ m : Mark, m ≠ 0#8 ∧ (calling .wait []).poolAt m = some 0) ∧
    ∀ m : Mark, m ≠ 0#8 → (calling .wait []).poolAt m ≠ some 1 :=
  ⟨⟨1#8, by decide +kernel⟩, fun m _ => by
    rw [show (calling .wait []).poolAt m = (State.reset.setPool 1#8 (some 0)).poolAt m from rfl, State.poolAt_setPool,
      reset_poolAt]
    split <;> simp⟩

theorem witness_TransmitWritesWholeFrames :
    (given [.txSend .ok]).txq = [] ∧ (closed [.txSend .ok]).sess ≠ .isOpen ∧
    ({ given [.txSend .ok] with txq := [(0, frameA)] } : State).txq = (0, frameA) :: [] ∧ 0 < frameA.length ∧
    5 < frameA.length := by decide

theorem witness_RxEndEntersTheFatalPath :
    (given [.rxEnd .readError]).inputs = .rxEnd .readError :: [] ∧ (given [.rxEnd .readError]).sess = .isOpen ∧
    (closing [.rxEnd .readEOF]).sess ≠ .isOpen := by decide

theorem witness_TimeoutAbandonsTheCall :
    (calling .wait [.timeout 0]).inputs = .timeout 0 :: [] ∧ (calling .wait [.timeout 0]).cfg.timeoutEnabled = true ∧
    (calling .wait [.timeout 0]).callAt 0 = .session .wait idCall 1#8 0 ∧
    (calling .wait [.timeout 0]).slotAt 0 = .waiting ∧ (calling .wait [.timeout 0]).poolAt 1#8 = some 0 ∧
    (State.fresh { Config.defaults with timeoutEnabled := false } [.timeout 0] 0).cfg.timeoutEnabled = false := by
  decide +kernel

/-- A caller in WAIT whose response is in already. -/
theorem witness_TimeoutAbandonsTheCall_late :
    ∀ op m t, (answeredCall (.done respC) [.timeout 0]).callAt 0 = .session .wait op m t →
      (answeredCall (.done respC) [.timeout 0]).slotAt t ≠ .waiting := by
  intro op m t h
  simp [answeredCall, State.callAt, tableGet] at h
  obtain ⟨-, -, rfl⟩ := h
  decide

theorem witness_ResetStepStartsAFreshSession :
    (closed [.reset Config.defaults]).inputs = .reset Config.defaults :: [] ∧ Config.defaults.valid = true := by decide

theorem witness_StepKeepsThePoolInvariants :
    PoolInv (answeredCall (.done respC) [.phase 0]) ∧ takesReset (answeredCall (.done respC) [.phase 0]) = false ∧
    ∃ u : State, step (answeredCall (.done respC) [.phase 0]) = .next u ∧ (u.slotAt 0 == .retired) = true :=
  ⟨poolInv_answeredCall, by decide, exists_of_after (by decide +kernel)⟩

theorem witness_StepKeepsTheSessionInvariants :
    SessionInv (answeredCall (.done respC) [.phase 0]) ∧ QueueInv (answeredCall (.done respC) [.phase 0]) ∧
    SizeInv (answeredCall (.done respC) [.phase 0]) ∧ FormInv (answeredCall (.done respC) [.phase 0]) ∧
    ∃ u : State, step (answeredCall (.done respC) [.phase 0]) = .next u ∧ (u.callAt 0 == .idle) = true := by
  refine ⟨⟨rfl, ?_⟩, ?_, ⟨?_, ?_⟩, ⟨by decide, by decide, by decide⟩, exists_of_after (by decide +kernel)⟩
  · intro r h
    exact absurd h (by simp [answeredCall, State.reset, State.fresh])
  · intro e h
    exact absurd h (by simp [answeredCall, State.reset, State.fresh])
  · intro c ph op m t h
    rcases c with _ | c <;> simp [answeredCall, State.callAt, tableGet] at h
    obtain ⟨-, rfl, rfl, -⟩ := h
    decide
  · intro n h
    exact absurd h (by simp [answeredCall, State.reset, State.fresh, Config.defaults])

theorem calling_poolAt (m : Mark) :
    (calling .wait [.timeout 0]).poolAt m = if m = 1#8 then some 0 else none := by
  rw [show (calling .wait [.timeout 0]).poolAt m = (State.reset.setPool 1#8 (some 0)).poolAt m from rfl,
    State.poolAt_setPool, reset_poolAt]

theorem calling_slotAt (t : Ticket) :
    (calling .wait [.timeout 0]).slotAt t = if t = 0 then .waiting else .unused := by
  rcases t with _ | t <;>
    simp [calling, State.reserve, State.setSlot, State.setPool, State.reset, State.fresh, State.slotAt, tableSet,
      tableInsert, tableGet]

/-- The state of a call in WAIT that is still waiting meets the pool invariants. -/
theorem poolInv_calling : PoolInv (calling .wait [.timeout 0]) where
  markZero := by rw [calling_poolAt]; decide
  injective := by
    intro m m' t h h'
    rw [calling_poolAt] at h h'
    split at h <;> split at h' <;> simp_all
  waiting := by
    intro t
    simp only [calling_poolAt, calling_slotAt]
    constructor
    · intro h
      split at h
      · next ht => exact ⟨1#8, by simp [ht]⟩
      · simp at h
    · rintro ⟨m, h⟩
      split at h
      · simp only [Option.some.injEq] at h
        simp [← h]
      · simp at h
  poolTickets := by
    intro m t h
    rw [calling_poolAt] at h
    split at h
    · simp only [Option.some.injEq] at h
      subst h
      decide
    · simp at h
  txqTickets := by
    intro e h
    exact absurd h (by simp [calling, State.reserve, State.setSlot, State.setPool, State.reset, State.fresh])
  callTickets := by
    intro c t h
    rcases c with _ | c
    · simp [calling, State.callAt, tableGet, CallState.ticket] at h
      subst h; decide
    · simp [calling, State.callAt, tableGet, CallState.ticket] at h
  capacity := by decide +kernel
  unused := by
    intro t
    rw [calling_slotAt]
    rcases t with _ | t <;> simp [calling, State.reserve, State.reset, State.fresh]

/-- The call holds mark 1 and its slot is waiting, so the invariant says something of it. -/
theorem witness_StepKeepsTheSessionInvariants_hold :
    PoolInv (calling .wait [.timeout 0]) ∧ HoldInv (calling .wait [.timeout 0]) ∧
    (calling .wait [.timeout 0]).slotAt 0 = .waiting ∧
    ∃ u : State, step (calling .wait [.timeout 0]) = .next u ∧ (u.slotAt 0 == .failed .timeout) = true := by
  refine ⟨poolInv_calling, ?_, by rw [calling_slotAt]; rfl, exists_of_after (by decide +kernel)⟩
  intro c ph op m t h _
  rcases c with _ | c <;> simp [calling, State.callAt, tableGet] at h
  obtain ⟨-, -, rfl, rfl⟩ := h
  rw [calling_poolAt]
  rfl

theorem witness_SlotsMoveOnlyForward :
    PoolInv (answeredCall (.done respC) [.phase 0]) ∧ takesReset (answeredCall (.done respC) [.phase 0]) = false ∧
    ∃ u : State, step (answeredCall (.done respC) [.phase 0]) = .next u ∧ (u.slotAt 0 != .done respC) = true :=
  ⟨poolInv_answeredCall, by decide, exists_of_after (by decide +kernel)⟩

theorem witness_SessionNeverReopens :
    takesReset (closing [.finalize]) = false ∧
    ∃ u : State, step (closing [.finalize]) = .next u ∧ (u.sess == .closed .localClose) = true :=
  ⟨by decide, exists_of_after (by decide +kernel)⟩

theorem witness_OnlyTheNamedStepsWriteTheStatus :
    Instr.acquire ≠ .close ∧
    (∃ u : State, exec .acquire State.reset = .next u ∧ (u.nextTicket == 1) = true) ∧
    ∃ u : State, step (given [.request 0 [0x13#8]]) = .next u ∧
      (u.sess != (given [.request 0 [0x13#8]]).sess) = true :=
  ⟨by decide, exists_of_after (by decide +kernel), exists_of_after (by decide +kernel)⟩

theorem witness_RecordsOnlyGrow :
    takesReset { given [.txSend .ok] with txq := [(0, frameA)] } = false ∧
    ∃ u : State, step { given [.txSend .ok] with txq := [(0, frameA)] } = .next u ∧ (u.wireOut == frameA) = true :=
  ⟨by decide, exists_of_after (by decide +kernel)⟩

theorem witness_ReadBufferIsAStream :
    takesReset (taking .isOpen [0x41#8]) = false ∧
    ∃ u : State, step (taking .isOpen [0x41#8]) = .next u ∧ (u.rdbuf == []) = true :=
  ⟨by decide, exists_of_after (by decide +kernel)⟩

theorem witness_ErrorCodesAreNumbered :
    errorCodeOk 0x0D#8 = true ∧ errOfCode 0 0x0D#8 = some .timeout ∧ errOfCode 0 0x01#8 = some .invalidDelimiter ∧
    errOfCode 0 0x11#8 = some .abandoned := by decide

end Sys2Proof.Tests
end

section
/-! The pool invariants (10_state.md R36) and the reset step (70_reset_and_hazards.md R340). First what one pool
operation does to the invariants, then what an instruction and a step can do, then the two statements. -/

namespace Sys2Proof.Machine

/-! ## The pool operations keep the pool invariants -/

/-- Mark 0 is one of the 256 marks, so as long as it is free at most 255 are reserved (R36 (e)). -/
theorem reservedCount_le (s : State) (h : s.poolAt 0#8 = none) : reservedCount s ≤ 255 := by
  have hmem : (none : Option Ticket) ∈ s.pool.toList := h ▸ by simp [State.poolAt]
  have hlt : reservedCount s < s.pool.toList.length :=
    List.countP_lt_length_iff.2 ⟨none, hmem, by simp⟩
  simp only [Vector.length_toList] at hlt
  omega

namespace PoolInv

variable {s u : State}

/-- A ticket that is in any state but `Unused` has been allocated. -/
theorem lt_of_slotAt_ne_unused (hs : PoolInv s) {t : Ticket} (h : s.slotAt t ≠ .unused) : t < s.nextTicket :=
  Nat.lt_of_not_le fun hle => h ((hs.unused t).2 hle)

/-- The same pool, slots and ticket counter, with `TXQ` and `CALLS` that name allocated tickets only. -/
theorem of_same_pool (hs : PoolInv s) (hpool : u.pool = s.pool) (hslots : u.slots = s.slots)
    (hnext : u.nextTicket = s.nextTicket) (htxq : ∀ e ∈ u.txq, e.1 < s.nextTicket)
    (hcalls : ∀ (c : CallerId) (t : Ticket), (u.callAt c).ticket = some t → t < s.nextTicket) : PoolInv u := by
  have hp : ∀ m, u.poolAt m = s.poolAt m := fun m => by simp [State.poolAt, hpool]
  have hsl : ∀ t, u.slotAt t = s.slotAt t := fun t => by simp [State.slotAt, hslots]
  exact {
    markZero := (hp 0#8).trans hs.markZero
    injective := by simpa only [hp] using hs.injective
    waiting := by simpa only [hp, hsl] using hs.waiting
    poolTickets := by simpa only [hp, hnext] using hs.poolTickets
    txqTickets := by simpa only [hnext] using htxq
    callTickets := by simpa only [hnext] using hcalls
    capacity := reservedCount_le u ((hp 0#8).trans hs.markZero)
    unused := by simpa only [hsl, hnext] using hs.unused }

/-- The invariants speak of `POOL`, `SLOT`, `NEXT_TICKET`, `TXQ` and `CALLS` alone. -/
theorem frame (hs : PoolInv s) (hpool : u.pool = s.pool) (hslots : u.slots = s.slots)
    (hnext : u.nextTicket = s.nextTicket) (htxq : u.txq = s.txq) (hcalls : u.calls = s.calls) : PoolInv u :=
  hs.of_same_pool hpool hslots hnext (htxq ▸ hs.txqTickets)
    (fun c t h => hs.callTickets c t (by simpa only [State.callAt, hcalls] using h))

theorem emit (hs : PoolInv s) (e : Event) : PoolInv (s.emit e) := hs.frame rfl rfl rfl rfl rfl

theorem complete (hs : PoolInv s) (c : CallerId) (x : Completion) : PoolInv (s.complete c x) :=
  hs.frame rfl rfl rfl rfl rfl

theorem setCall (hs : PoolInv s) (c : CallerId) (v : CallState)
    (hv : ∀ t, v.ticket = some t → t < s.nextTicket) : PoolInv (s.setCall c v) := by
  refine hs.of_same_pool rfl rfl rfl hs.txqTickets fun c' t h => ?_
  rw [State.callAt_setCall] at h
  split at h
  · exact hv t h
  · exact hs.callTickets c' t h

theorem setCall_idle (hs : PoolInv s) (c : CallerId) : PoolInv (s.setCall c .idle) :=
  hs.setCall c .idle (fun _ h => by simp [CallState.ticket] at h)

/-- ACQUIRE's reservation of a free mark above 0 (R170): the new ticket is above every ticket in use. -/
theorem reserve (hs : PoolInv s) {m : Mark} (hm : m ≠ 0#8) (hfree : s.poolAt m = none) : PoolInv (s.reserve m) := by
  have hzero : (s.reserve m).poolAt 0#8 = none := by simp [hm.symm, hs.markZero]
  have hnew : ∀ m', s.poolAt m' ≠ some s.nextTicket := fun m' h => absurd (hs.poolTickets m' _ h) (lt_irrefl _)
  exact {
    markZero := hzero
    injective := by
      intro a b t ha hb
      rw [State.reserve_poolAt] at ha hb
      split at ha <;> split at hb
      · next h h' => exact h.trans h'.symm
      · cases ha; exact absurd hb (hnew b)
      · cases hb; exact absurd ha (hnew a)
      · exact hs.injective a b t ha hb
    waiting := by
      intro t
      simp only [State.reserve_slotAt, State.reserve_poolAt]
      by_cases ht : t = s.nextTicket
      · exact iff_of_true (if_pos ht) ⟨m, by simp [ht]⟩
      · rw [if_neg ht, hs.waiting t]
        refine exists_congr fun a => ?_
        split
        · next ha => simp [ha, hfree, Ne.symm ht]
        · rfl
    poolTickets := by
      intro a t ha
      rw [State.reserve_poolAt] at ha
      split at ha
      · cases ha; exact Nat.lt_succ_self _
      · exact Nat.lt_succ_of_lt (hs.poolTickets a t ha)
    txqTickets := fun e he => Nat.lt_succ_of_lt (hs.txqTickets e he)
    callTickets := fun c t h => Nat.lt_succ_of_lt (hs.callTickets c t h)
    capacity := reservedCount_le _ hzero
    unused := by
      intro t
      rw [State.reserve_slotAt, State.reserve_nextTicket]
      split
      · next ht => simp [ht]
      · next ht => exact (hs.unused t).trans ⟨fun h => Nat.lt_of_le_of_ne h (Ne.symm ht), Nat.le_of_succ_le⟩ }

/-- RELEASE, ABANDON and FORCE_RELEASE_ALL free a mark and give its slot a result in one step (R173, R174, R176). -/
theorem settle (hs : PoolInv s) {m : Mark} {t : Ticket} (h : s.poolAt m = some t) {v : SlotState}
    (hw : v ≠ .waiting) (hu : v ≠ .unused) : PoolInv ((s.setPool m none).setSlot t v) := by
  have hzero : ((s.setPool m none).setSlot t v).poolAt 0#8 = none := by simp [hs.markZero]
  have hheld : ∀ a k, ((s.setPool m none).setSlot t v).poolAt a = some k ↔ s.poolAt a = some k ∧ k ≠ t := by
    intro a k
    rw [State.setSlot_poolAt, State.poolAt_setPool]
    split
    · next ha => subst ha; simp [h, eq_comm]
    · next ha => exact ⟨fun hk => ⟨hk, fun hkt => ha (hs.injective a m t (hkt ▸ hk) h)⟩, And.left⟩
  exact {
    markZero := hzero
    injective := fun a b k ha hb => hs.injective a b k ((hheld a k).1 ha).1 ((hheld b k).1 hb).1
    waiting := by
      intro k
      simp only [hheld, State.slotAt_setSlot, State.setPool_slotAt]
      by_cases hk : k = t
      · simp [hk, hw]
      · simp [hk, hs.waiting k]
    poolTickets := fun a k ha => hs.poolTickets a k ((hheld a k).1 ha).1
    txqTickets := hs.txqTickets
    callTickets := hs.callTickets
    capacity := reservedCount_le _ hzero
    unused := by
      intro k
      rw [State.slotAt_setSlot]
      split
      · next hk => exact iff_of_false hu (Nat.not_le.2 (hk ▸ hs.poolTickets m t h))
      · exact hs.unused k }

/-- AWAIT retires a slot that holds a result (R175). -/
theorem retire (hs : PoolInv s) {t : Ticket} (hw : s.slotAt t ≠ .waiting) (hu : s.slotAt t ≠ .unused) :
    PoolInv (s.setSlot t .retired) where
  markZero := hs.markZero
  injective := hs.injective
  waiting := by
    intro k
    by_cases hk : k = t
    · simpa [hk] using fun a ha => hw ((hs.waiting t).2 ⟨a, ha⟩)
    · simpa [hk] using hs.waiting k
  poolTickets := hs.poolTickets
  txqTickets := hs.txqTickets
  callTickets := hs.callTickets
  capacity := hs.capacity
  unused := by
    intro k
    rw [State.slotAt_setSlot]
    split
    · next hk =>
      have hlt : k < s.nextTicket := hk ▸ hs.lt_of_slotAt_ne_unused hu
      exact iff_of_false (by simp) (Nat.not_le.2 hlt)
    · exact hs.unused k

/-- R38: after reset no mark is reserved, no slot is in use and nothing names a ticket. -/
theorem fresh (cfg : Cfg) (inputs : List Input) (k : Nat) : PoolInv (State.fresh cfg inputs k) := by
  have hpool : ∀ m, (State.fresh cfg inputs k).poolAt m = none := fun m => by simp [State.fresh, State.poolAt]
  have hslot : ∀ t, (State.fresh cfg inputs k).slotAt t = .unused := fun _ => rfl
  have hcall : ∀ c, (State.fresh cfg inputs k).callAt c = .idle := fun _ => rfl
  exact {
    markZero := hpool 0#8
    injective := by simp [hpool]
    waiting := by simp [hpool, hslot]
    poolTickets := by simp [hpool]
    txqTickets := by simp [State.fresh]
    callTickets := by simp [hcall, CallState.ticket]
    capacity := reservedCount_le _ (hpool 0#8)
    unused := fun t => iff_of_true (hslot t) (Nat.zero_le t) }

end PoolInv

/-! ## What an instruction can do -/

/-- The ways in which an instruction can change the state (`exec_effect`). The caller that it answers or holds is the
acting one. -/
inductive ExecEffect (s : State) : State → Prop
  /-- A sent frame that is not the acting caller's is not sent. -/
  | nothing : ExecEffect s s
  /-- A received frame is reported and dropped (R255, R257). -/
  | report (e : Event) : ExecEffect s (s.emit e)
  /-- A received response is released to the holder of its mark (R252 to R254). -/
  | respond (m : Mark) (p : Bytes) : ExecEffect s (releaseOp m p s)
  /-- Received data goes to the read buffer (R251). -/
  | receive (p : Bytes) : ExecEffect s (routeRx p s)
  /-- The SEND phase of the acting caller's call (R270). -/
  | send (p : Bytes) (op : Call) (m : Mark) (t : Ticket) (h : s.callAt s.reqCaller = .session .send op m t) :
      ExecEffect s (sendPhase p op m t s)
  /-- A request that is answered and does nothing else. -/
  | answer (x : Completion) : ExecEffect s (s.complete s.reqCaller x)
  /-- ACQUIRE of a free mark (R170). -/
  | acquire (m : Mark) (hopen : s.sess.ended = none) (hfree : s.freeMark = some m) :
      ExecEffect s ((s.reserve m).complete s.reqCaller (.ok (.acquired m s.nextTicket)))
  /-- RELEASE (R173). -/
  | release (m : Mark) (resp : Bytes) (x : Completion) :
      ExecEffect s ((releaseOp m resp s).complete (releaseOp m resp s).reqCaller x)
  /-- ABANDON, with the count of free values after it (R174). -/
  | abandon (m : Mark) (t : Ticket) (e : Err) (k : Nat) (x : Completion) :
      ExecEffect s ({ abandonOp m t e s with freeCount := k }.complete (abandonOp m t e s).reqCaller x)
  /-- AWAIT that is not held (R175). -/
  | await (t : Ticket) (s' : State) (r : Except Err Bytes) (x : Completion) (h : awaitOp t s = some (s', r)) :
      ExecEffect s (s'.complete s'.reqCaller x)
  /-- AWAIT of a waiting slot holds the caller (R175). -/
  | awaiting (t : Ticket) (h : s.slotAt t = .waiting) : ExecEffect s (s.setCall s.reqCaller (.awaiting t))
  /-- START of a session call (R270). -/
  | start (op : Call) : ExecEffect s (startCall op s)
  /-- READ that is not held (R285). -/
  | read (nmax : Nat) (s' : State) (r : Except Err Bytes) (x : Completion) (h : takeOp nmax s = some (s', r)) :
      ExecEffect s (s'.complete s'.reqCaller x)
  /-- READ with nothing to take holds the caller (R285). -/
  | reading (nmax : Nat) : ExecEffect s (s.setCall s.reqCaller (.reading nmax))
  /-- CLOSE of an open session (R292). -/
  | close (h : s.sess.ended = none) : ExecEffect s ((enterFatal .localClose s).complete s.reqCaller (.ok .unit))

theorem State.finishWith_eq_complete {α : Type} (s : State) (mk : α → Result) (r : Except Err α) :
    ∃ x, s.finishWith mk r = s.complete s.reqCaller x := by
  cases r with
  | ok a => exact ⟨_, rfl⟩
  | error e => exact ⟨_, rfl⟩

theorem ExecEffect.finishWith {α : Type} (s : State) (mk : α → Result) (r : Except Err α) :
    ExecEffect s (s.finishWith mk r) := by
  obtain ⟨x, hx⟩ := s.finishWith_eq_complete mk r
  exact hx ▸ .answer x

theorem ExecEffect.sendPayload (p : Bytes) (s : State) : ExecEffect s (sendPayload p s) := by
  rcases sendPayload_cases p s with h | ⟨op, m, t, hc, _, h⟩
  · rw [h]; exact .nothing
  · exact h ▸ .send p op m t hc

theorem ExecEffect.routeResp {α : Type} (d : Except Err α) (p : Bytes) (s : State) :
    ExecEffect s (routeResp d p s) := by
  rcases routeResp_cases d p s with ⟨e, _, h⟩ | ⟨r, _, h⟩
  · exact h ▸ .report _
  · exact h ▸ .respond _ p

/-- The router does nothing that a frame does not (R250). -/
theorem ExecEffect.dispatchPayload (p : Bytes) (s : State) : ExecEffect s (dispatchPayload p s) := by
  unfold Machine.dispatchPayload
  split
  · exact .report _
  · split_ifs
    · exact .receive _
    · exact .routeResp _ _ s
    · exact .routeResp _ _ s
    · exact .routeResp _ _ s
    · exact .report _

theorem execAcquire_effect (s : State) : ∃ u, execAcquire s = .next u ∧ ExecEffect s u := by
  unfold execAcquire
  rcases acquireOp_cases s with ⟨r, _, h⟩ | ⟨_, _, h⟩ | ⟨m, ho, hm, h⟩ <;> rw [h]
  · exact ⟨_, rfl, .answer _⟩
  · exact ⟨_, rfl, .answer _⟩
  · exact ⟨_, rfl, .acquire m ho hm⟩

theorem execRelease_effect (m : Mark) (resp : Bytes) (s : State) :
    ∃ u, execRelease m resp s = .next u ∧ ExecEffect s u := by
  unfold execRelease
  split
  · exact ⟨_, rfl, .release m resp _⟩
  · exact ⟨_, rfl, .release m resp _⟩

theorem execAbandon_effect (m : Mark) (t : Ticket) (code : Byte) (s : State) :
    ∃ u, execAbandon m t code s = .next u ∧ ExecEffect s u := by
  unfold execAbandon
  split
  · exact ⟨_, rfl, .answer _⟩
  · next e _ =>
    split
    · exact ⟨_, rfl, .abandon m t e _ _⟩
    · exact ⟨_, rfl, .abandon m t e (abandonOp m t e s).freeCount _⟩

theorem execAwait_effect (t : Ticket) (s : State) : ∃ u, execAwait t s = .next u ∧ ExecEffect s u := by
  unfold execAwait
  split
  · next h =>
    refine ⟨_, rfl, .awaiting t ?_⟩
    rcases awaitOp_cases t s with ⟨_, h'⟩ | ⟨hw, _⟩ | ⟨_, _, h'⟩ | ⟨_, _, h'⟩
    · simp [h] at h'
    · exact hw
    · simp [h] at h'
    · simp [h] at h'
  · next s' r h =>
    obtain ⟨x, hx⟩ := s'.finishWith_eq_complete .bytes r
    exact ⟨_, rfl, hx ▸ .await t s' r x h⟩

theorem execRead_effect (nmax : Nat) (s : State) : ∃ u, execRead nmax s = .next u ∧ ExecEffect s u := by
  unfold execRead
  split
  · exact ⟨_, rfl, .answer _⟩
  · split
    · exact ⟨_, rfl, .reading nmax⟩
    · next s' r h =>
      obtain ⟨x, hx⟩ := s'.finishWith_eq_complete .bytes r
      exact ⟨_, rfl, hx ▸ .read nmax s' r x h⟩

theorem execClose_effect (s : State) : ∃ u, execClose s = .next u ∧ ExecEffect s u := by
  unfold execClose
  split
  · exact ⟨_, rfl, .answer _⟩
  · next h => exact ⟨_, rfl, .close h⟩

/-- A frame of a produced type is sent on the one side and reported as unknown on the other (R255). -/
theorem producedFrame_effect (meaning : Side → Host.Outcome State Fault Refusal) (side : Side) {p : Bytes}
    {t : Option Byte} {s : State} (hsent : meaning .sent = .next (sendPayload p s))
    (hreceived : meaning .received = .next (routeUnknown t s)) : ∃ u, meaning side = .next u ∧ ExecEffect s u := by
  cases side with
  | sent => exact ⟨_, hsent, .sendPayload p s⟩
  | received => exact ⟨_, hreceived, .report _⟩

/-- Everything an instruction can do: it always has a next state, reached in one of the ways of `ExecEffect`. -/
theorem exec_effect (i : Instr) (s : State) : ∃ u, exec i s = .next u ∧ ExecEffect s u := by
  cases i with
  | atCommandFrame side m mn d =>
    exact producedFrame_effect (execAtCommandFrame · m mn d s) side rfl rfl
  | queuedAtCommandFrame side m mn d =>
    exact producedFrame_effect (execQueuedAtCommandFrame · m mn d s) side rfl rfl
  | txRequestFrame side m a h r o d =>
    exact producedFrame_effect (execTxRequestFrame · m a h r o d s) side rfl rfl
  | remoteAtCommandFrame side m a h o mn d =>
    exact producedFrame_effect (execRemoteAtCommandFrame · m a h o mn d s) side rfl rfl
  | atCommandResponseFrame _ _ _ _ => exact ⟨_, rfl, .routeResp _ _ s⟩
  | txStatusFrame _ _ _ _ _ => exact ⟨_, rfl, .routeResp _ _ s⟩
  | rxIndicatorFrame _ _ _ _ => exact ⟨_, rfl, .receive _⟩
  | remoteCommandResponseFrame _ _ _ _ _ _ => exact ⟨_, rfl, .routeResp _ _ s⟩
  | encodeFrame _ => exact ⟨_, rfl, .finishWith s _ _⟩
  | decodeFrame _ => exact ⟨_, rfl, .finishWith s _ _⟩
  | syncStep _ _ => exact ⟨_, rfl, .answer _⟩
  | acquire => exact execAcquire_effect s
  | release m resp => exact execRelease_effect m resp s
  | abandon m t code => exact execAbandon_effect m t code s
  | awaitSlot t => exact execAwait_effect t s
  | encodeAt _ _ _ _ => exact ⟨_, rfl, .answer _⟩
  | encodeRemoteAt _ _ _ _ _ => exact ⟨_, rfl, .answer _⟩
  | encodeTx _ _ _ _ _ => exact ⟨_, rfl, .answer _⟩
  | decodeAtResp _ => exact ⟨_, rfl, .finishWith s _ _⟩
  | decodeRemoteAtResp _ => exact ⟨_, rfl, .finishWith s _ _⟩
  | decodeRx _ => exact ⟨_, rfl, .finishWith s _ _⟩
  | decodeTxStatus _ => exact ⟨_, rfl, .finishWith s _ _⟩
  | write _ => exact ⟨_, rfl, .start _⟩
  | atCommand _ _ _ => exact ⟨_, rfl, .start _⟩
  | remoteAtCommand _ _ _ _ => exact ⟨_, rfl, .start _⟩
  | read nmax => exact execRead_effect nmax s
  | close => exact execClose_effect s

/-! ## What a step can do -/

/-- The ways in which a step that has taken the input `x` can change the state (`step_effect`). -/
inductive StepEffect (s : State) : Input → State → Prop
  /-- The step is not enabled. -/
  | idle (x : Input) : StepEffect s x s
  /-- The reset step (R340). -/
  | reset (cfg : Cfg) (h : cfg.valid = true) : StepEffect s (.reset cfg) (resetStep cfg s)
  /-- A request of an idle caller (R8, R34). -/
  | request (c : CallerId) (bytes : Bytes) (u : State) (hidle : s.callAt c = .idle)
      (h : ExecEffect { s with reqCaller := c } u) : StepEffect s (.request c bytes) u
  /-- A SEND phase, which runs the frame it sends (R270). -/
  | send (c : CallerId) (op : Call) (m : Mark) (t : Ticket) (u : State) (hcall : s.callAt c = .session .send op m t)
      (h : ExecEffect { s with reqCaller := c } u) : StepEffect s (.phase c) u
  /-- A WAIT phase (R270). -/
  | wait (c : CallerId) (op : Call) (m : Mark) (t : Ticket) (hcall : s.callAt c = .session .wait op m t) :
      StepEffect s (.phase c) (waitPhase c op m t s)
  /-- The phase of a caller held in AWAIT (R175). -/
  | await (c : CallerId) (t : Ticket) (hcall : s.callAt c = .awaiting t) :
      StepEffect s (.phase c) (awaitPhase c t s)
  /-- The phase of a caller held in TAKE (R285). -/
  | take (c : CallerId) (nmax : Nat) (hcall : s.callAt c = .reading nmax) :
      StepEffect s (.phase c) (takePhase c nmax s)
  /-- INGEST (R145). -/
  | ingest (ch : Bytes) : StepEffect s (.chunk ch) (ingest ch s)
  /-- RX_END (R293). -/
  | rxEnd (r : RxEndReason) : StepEffect s (.rxEnd r) (rxEnd r s)
  /-- SCAN: what it consumes, then the frame it found, if any (R146). -/
  | scan (u : State) (hen : scanEnabled s = true) (h : ExecEffect (scanConsume s) u) : StepEffect s .scan u
  /-- FINALIZE (R148). -/
  | finalize : StepEffect s .finalize (finalize s)
  /-- TX_SEND (R290). -/
  | txSend (o : WriteOutcome) : StepEffect s (.txSend o) (txSend o s)
  /-- TIMEOUT (R296). -/
  | timeout (c : CallerId) : StepEffect s (.timeout c) (timeoutStep c s)

/-- What is left of a step when its instruction has been fetched. -/
def Fetched.outcome (f : Fetched) : Host.Outcome State Fault Refusal :=
  match f with
  | .run i s => exec i s
  | .done s => .next s

theorem step_eq_outcome (s : State) : step s = (fetch s).outcome := by
  unfold step
  cases fetch s <;> rfl

theorem step_of_no_inputs {s : State} (h : s.inputs = []) : step s = .next s := by
  simp [step_eq_outcome, fetch, h, Fetched.outcome]

theorem step_of_input {s : State} {x : Input} {rest : List Input} (h : s.inputs = x :: rest) :
    step s = (fetchInput x { s with inputs := rest }).outcome := by
  simp [step_eq_outcome, fetch, h]

theorem fetchPayload_effect (p : Bytes) (s : State) :
    ∃ u, (fetchPayload p s).outcome = .next u ∧ ExecEffect s u := by
  unfold fetchPayload
  split
  · next i _ => exact exec_effect i s
  · exact ⟨_, rfl, .dispatchPayload p s⟩

theorem fetchScan_effect (s : State) : ∃ u, (fetchScan s).outcome = .next u ∧ StepEffect s .scan u := by
  unfold fetchScan
  split
  · next hen =>
    split
    · exact ⟨_, rfl, .scan _ hen .nothing⟩
    · split
      · exact ⟨_, rfl, .scan _ hen (.report _)⟩
      · next p _ =>
        obtain ⟨u, hu, he⟩ := fetchPayload_effect p (scanConsume s)
        exact ⟨u, hu, .scan u hen he⟩
  · exact ⟨_, rfl, .idle _⟩

theorem fetchRequest_effect (c : CallerId) (bytes : Bytes) (s : State) :
    ∃ u, (fetchRequest c bytes s).outcome = .next u ∧ StepEffect s (.request c bytes) u := by
  unfold fetchRequest
  split
  · next hidle =>
    split
    · next i _ =>
      obtain ⟨u, hu, he⟩ := exec_effect i { s with reqCaller := c }
      exact ⟨u, hu, .request c bytes u hidle he⟩
    · exact ⟨_, rfl, .request c bytes _ hidle (.answer _)⟩
  · exact ⟨_, rfl, .idle _⟩

theorem fetchSend_effect (c : CallerId) (op : Call) (m : Mark) (t : Ticket) (s : State)
    (hcall : s.callAt c = .session .send op m t) :
    ∃ u, (fetchSend c op m s).outcome = .next u ∧ StepEffect s (.phase c) u := by
  unfold fetchSend
  split
  · next i _ =>
    obtain ⟨u, hu, he⟩ := exec_effect i { s with reqCaller := c }
    exact ⟨u, hu, .send c op m t u hcall he⟩
  · exact ⟨_, rfl, .idle _⟩

theorem fetchPhase_effect (c : CallerId) (s : State) :
    ∃ u, (fetchPhase c s).outcome = .next u ∧ StepEffect s (.phase c) u := by
  unfold fetchPhase
  split
  · exact ⟨_, rfl, .idle _⟩
  · next op m t h => exact fetchSend_effect c op m t s h
  · next op m t h => exact ⟨_, rfl, .wait c op m t h⟩
  · next t h => exact ⟨_, rfl, .await c t h⟩
  · next nmax h => exact ⟨_, rfl, .take c nmax h⟩

theorem fetchInput_effect (x : Input) (s : State) :
    ∃ u, (fetchInput x s).outcome = .next u ∧ StepEffect s x u := by
  cases x with
  | reset cfg =>
    by_cases h : cfg.valid = true
    · exact ⟨_, by simp [fetchInput, Fetched.outcome, h], .reset cfg h⟩
    · exact ⟨_, by simp [fetchInput, Fetched.outcome, h], .idle _⟩
  | request c bytes => exact fetchRequest_effect c bytes s
  | phase c => exact fetchPhase_effect c s
  | chunk ch => exact ⟨_, rfl, .ingest ch⟩
  | rxEnd r => exact ⟨_, rfl, .rxEnd r⟩
  | scan => exact fetchScan_effect s
  | finalize => exact ⟨_, rfl, .finalize⟩
  | txSend o => exact ⟨_, rfl, .txSend o⟩
  | timeout c => exact ⟨_, rfl, .timeout c⟩

/-- Everything a step with an input can do: it always has a next state, reached in one of the ways of `StepEffect` from
the state with the input consumed. -/
theorem step_effect {s : State} {x : Input} {rest : List Input} (h : s.inputs = x :: rest) :
    ∃ u, step s = .next u ∧ StepEffect { s with inputs := rest } x u :=
  step_of_input h ▸ fetchInput_effect x { s with inputs := rest }

/-! ## The shared operations keep the pool invariants -/

namespace PoolInv

variable {s : State}

theorem routeRx (hs : PoolInv s) (p : Bytes) : PoolInv (routeRx p s) := by
  rcases routeRx_cases p s with ⟨e, _, h⟩ | ⟨r, _, _, h⟩ | ⟨r, n, _, _, _, h⟩ <;> rw [h]
  · exact hs.emit _
  · exact hs.frame rfl rfl rfl rfl rfl
  · exact hs.emit _

theorem releaseOp (hs : PoolInv s) (m : Mark) (resp : Bytes) : PoolInv (releaseOp m resp s) := by
  rcases releaseOp_cases m resp s with ⟨_, _, h⟩ | ⟨t, ht, _, h⟩ <;> rw [h]
  · exact hs.emit _
  · exact hs.settle ht (by simp) (by simp)

theorem abandonOp (hs : PoolInv s) (m : Mark) (t : Ticket) (e : Err) : PoolInv (abandonOp m t e s) := by
  rcases abandonOp_cases m t e s with ⟨ht, h⟩ | ⟨_, h⟩ <;> rw [h]
  · exact hs.settle ht (by simp) (by simp)
  · exact hs

theorem awaitOp (hs : PoolInv s) {t : Ticket} {s' : State} {x : Except Err Bytes}
    (h : awaitOp t s = some (s', x)) : PoolInv s' := by
  rcases awaitOp_cases t s with ⟨_, h'⟩ | ⟨_, h'⟩ | ⟨b, hd, h'⟩ | ⟨e, hf, h'⟩ <;>
    rw [h'] at h <;> cases h
  · exact hs
  · exact hs.retire (by simp [hd]) (by simp [hd])
  · exact hs.retire (by simp [hf]) (by simp [hf])

theorem takeOp (hs : PoolInv s) {nmax : Nat} {s' : State} {x : Except Err Bytes}
    (h : takeOp nmax s = some (s', x)) : PoolInv s' := by
  rcases takeOp_cases nmax s with ⟨_, _, h'⟩ | ⟨r, _, _, h'⟩ | ⟨_, h'⟩ <;> rw [h'] at h <;> cases h
  · exact hs
  · exact hs.frame rfl rfl rfl rfl rfl

/-- FORCE_RELEASE_ALL settles one mark after the other (R176). -/
theorem forceReleaseFrom (e : Err) (k : Nat) :
    ∀ (a : Nat) (s : State), PoolInv s → PoolInv (forceReleaseFrom e k a s) := by
  induction k with
  | zero => exact fun _ _ hs => hs
  | succ k ih =>
    intro a s hs
    unfold Machine.forceReleaseFrom
    split
    · exact ih (a + 1) s hs
    · next t ht => exact ih (a + 1) _ (hs.settle ht (by simp) (by simp))

theorem startCall (hs : PoolInv s) (op : Call) : PoolInv (startCall op s) := by
  rcases startCall_cases op s with ⟨e, h⟩ | ⟨m, _, _, hm, h⟩ <;> rw [h]
  · exact hs.complete _ _
  · obtain ⟨hne, hfree, _⟩ := s.freeMark_some m hm
    refine (hs.reserve hne hfree).setCall _ _ fun t ht => ?_
    cases ht
    exact Nat.lt_succ_self _

/-- A SEND phase names only the ticket of its call, in `TXQ` and in `CALLS` (R270). -/
theorem sendPhase (hs : PoolInv s) (p : Bytes) (op : Call) (m : Mark) (t : Ticket)
    (hcall : s.callAt s.reqCaller = .session .send op m t) : PoolInv (sendPhase p op m t s) := by
  have ht : t < s.nextTicket := hs.callTickets s.reqCaller t (by simp [hcall, CallState.ticket])
  have hwait : PoolInv (s.setCall s.reqCaller (.session .wait op m t)) :=
    hs.setCall _ _ fun t' h => by cases h; exact ht
  rcases sendPhase_cases p op m t s with ⟨f, _, _, h⟩ | ⟨e, _, _, h⟩ | ⟨_, h⟩ <;> rw [h]
  · refine hwait.of_same_pool rfl rfl rfl (fun e he => ?_) hwait.callTickets
    rcases List.mem_append.1 he with he | he
    · exact hs.txqTickets e he
    · cases List.mem_singleton.1 he; exact ht
  · exact (hs.setCall_idle _).complete _ _
  · exact hwait

theorem waitPhase (hs : PoolInv s) (c : CallerId) (op : Call) (m : Mark) (t : Ticket) :
    PoolInv (waitPhase c op m t s) := by
  rcases waitPhase_cases c op m t s with ⟨_, h⟩ | ⟨s', x, ha, h⟩ <;> rw [h]
  · exact hs
  · exact (((hs.awaitOp ha).abandonOp m t .abandoned).setCall_idle c).complete _ _

theorem awaitPhase (hs : PoolInv s) (c : CallerId) (t : Ticket) : PoolInv (awaitPhase c t s) := by
  rcases awaitPhase_cases c t s with ⟨_, h⟩ | ⟨s', x, y, ha, h⟩ <;> rw [h]
  · exact hs
  · exact ((hs.awaitOp ha).setCall_idle c).complete _ _

theorem takePhase (hs : PoolInv s) (c : CallerId) (nmax : Nat) : PoolInv (takePhase c nmax s) := by
  rcases takePhase_cases c nmax s with h | ⟨s', x, y, ht, h⟩ <;> rw [h]
  · exact hs
  · exact ((hs.takeOp ht).setCall_idle c).complete _ _

theorem ingest (hs : PoolInv s) (ch : Bytes) : PoolInv (ingest ch s) := by
  unfold Machine.ingest
  split
  · exact hs.frame rfl rfl rfl rfl rfl
  · exact hs

theorem enterFatal (hs : PoolInv s) (r : Reason) : PoolInv (enterFatal r s) := hs.frame rfl rfl rfl rfl rfl

theorem rxEnd (hs : PoolInv s) (r : RxEndReason) : PoolInv (rxEnd r s) := by
  unfold Machine.rxEnd
  split
  · exact hs.enterFatal _
  · exact hs

/-- `TXQ` may lose entries. -/
theorem setTxq_subset (hs : PoolInv s) {q : List (Ticket × Bytes)} (h : q ⊆ s.txq) : PoolInv { s with txq := q } :=
  hs.of_same_pool rfl rfl rfl (fun e he => hs.txqTickets e (h he)) hs.callTickets

theorem finalize (hs : PoolInv s) : PoolInv (finalize s) := by
  rcases finalize_cases s with h | ⟨r, _, _, h⟩ <;> rw [h]
  · exact hs
  · have hquiet : PoolInv { s with diag := s.diag ++ leftoverEvents s, syncbuf := [], txq := [] } :=
      (hs.setTxq_subset (List.nil_subset _)).frame rfl rfl rfl rfl rfl
    exact (forceReleaseFrom (.transportClosed r) 255 1 _ hquiet).frame rfl rfl rfl rfl rfl

theorem txSend (hs : PoolInv s) (o : WriteOutcome) : PoolInv (txSend o s) := by
  rcases txSend_cases o s with h | ⟨t, f, rest, _, hq, _, h⟩ | ⟨t, f, rest, j, _, hq, _, _, h⟩ <;> rw [h]
  · exact hs
  · exact (hs.setTxq_subset (q := rest) (by simp [hq])).frame rfl rfl rfl rfl rfl
  · exact (hs.setTxq_subset (q := rest) (by simp [hq])).frame rfl rfl rfl rfl rfl

theorem timeoutStep (hs : PoolInv s) (c : CallerId) : PoolInv (timeoutStep c s) := by
  rcases timeoutStep_cases c s with h | ⟨op, m, t, _, _, _, h⟩ <;> rw [h]
  · exact hs
  · exact (hs.setTxq_subset (List.filter_subset_self _)).abandonOp m t .timeout

/-! ## Every instruction and every step keeps the pool invariants -/

theorem execEffect (hs : PoolInv s) {u : State} (h : ExecEffect s u) : PoolInv u := by
  cases h with
  | nothing => exact hs
  | report e => exact hs.emit e
  | respond m p => exact hs.releaseOp m p
  | receive p => exact hs.routeRx p
  | send p op m t hcall => exact hs.sendPhase p op m t hcall
  | answer x => exact hs.complete _ x
  | acquire m _ hm =>
    obtain ⟨hne, hfree, _⟩ := s.freeMark_some m hm
    exact (hs.reserve hne hfree).complete _ _
  | release m resp x => exact (hs.releaseOp m resp).complete _ x
  | abandon m t e k x => exact (hs.abandonOp m t e).frame rfl rfl rfl rfl rfl
  | await t s' r x ha => exact (hs.awaitOp ha).complete _ x
  | awaiting t hw =>
    refine hs.setCall _ _ fun t' ht => ?_
    cases ht
    exact hs.lt_of_slotAt_ne_unused (by simp [hw])
  | start op => exact hs.startCall op
  | read nmax s' r x ht => exact (hs.takeOp ht).complete _ x
  | reading nmax => exact hs.setCall _ _ fun t ht => by simp [CallState.ticket] at ht
  | close _ => exact (hs.enterFatal .localClose).complete _ _

theorem stepEffect (hs : PoolInv s) {x : Input} {u : State} (h : StepEffect s x u) : PoolInv u := by
  have hcaller : ∀ c, PoolInv { s with reqCaller := c } := fun c => hs.frame rfl rfl rfl rfl rfl
  cases h with
  | idle => exact hs
  | reset cfg _ => exact fresh cfg s.inputs s.freeCount
  | request c bytes u _ he => exact (hcaller c).execEffect he
  | send c op m t u _ he => exact (hcaller c).execEffect he
  | wait c op m t _ => exact hs.waitPhase c op m t
  | await c t _ => exact hs.awaitPhase c t
  | take c nmax _ => exact hs.takePhase c nmax
  | ingest ch => exact hs.ingest ch
  | rxEnd r => exact hs.rxEnd r
  | scan u _ he =>
    have hconsumed : PoolInv (scanConsume s) := hs.frame rfl rfl rfl rfl rfl
    exact hconsumed.execEffect he
  | finalize => exact hs.finalize
  | txSend o => exact hs.txSend o
  | timeout c => exact hs.timeoutStep c

end PoolInv

/-! ## The statements -/

/-- Settles O53: a step consumes its input, which the invariants do not read, and then has one of the effects of
`StepEffect`, each of which keeps them. -/
theorem stepKeepsThePoolInvariants : Obligations.StepKeepsThePoolInvariants := by
  intro s u hs hstep
  cases hin : s.inputs with
  | nil =>
    rw [step_of_no_inputs hin] at hstep
    cases hstep
    exact hs
  | cons x rest =>
    obtain ⟨u', hu', heff⟩ := step_effect hin
    rw [hu'] at hstep
    cases hstep
    have hconsumed : PoolInv { s with inputs := rest } := hs.frame rfl rfl rfl rfl rfl
    exact hconsumed.stepEffect heff

theorem step_reset {s : State} {cfg : Cfg} {rest : List Input} (h : s.inputs = .reset cfg :: rest)
    (hv : cfg.valid = true) : step s = .next (resetStep cfg { s with inputs := rest }) := by
  simp [step_of_input h, fetchInput, Fetched.outcome, hv]

/-- Settles O51: the reset step leaves the state of R38 with the configuration inputs sampled. -/
theorem resetStepStartsAFreshSession : Obligations.ResetStepStartsAFreshSession := by
  intro s cfg rest hin hv
  refine ⟨_, step_reset hin hv, rfl, rfl, rfl, rfl, fun m => ?_, rfl, fun t => rfl, rfl, rfl, fun c => rfl, rfl⟩
  simp [resetStep, State.fresh, State.poolAt]

end Sys2Proof.Machine
end

section
/-! The checksum and the framer (40_framer.md R120 to R125). First the arithmetic of `sum8` and `cks`, then what
ENCODE_FRAME builds and what DECODE_FRAME answers for each form of its operand, then the five statements. -/

namespace Sys2Proof

/-! ## Bytes and 16-bit lengths -/

theorem byteAt_of_lt {s : Bytes} {i : Nat} (h : i < s.length) : byteAt s i = s[i] := by
  simp [byteAt, h]

theorem byteAt_set_of_ne {j k : Nat} (h : j ≠ k) (s : Bytes) (b : Byte) : byteAt (s.set j b) k = byteAt s k := by
  simp [byteAt, List.getElem?_set_ne h]

theorem byteAt_append_left {p : Bytes} {i : Nat} (h : i < p.length) (q : Bytes) : byteAt (p ++ q) i = byteAt p i :=
  List.getD_append p q 0#8 i h

@[simp] theorem byteAt_append_length (p q : Bytes) : byteAt (p ++ q) p.length = byteAt q 0 := by
  rw [byteAt, List.getD_append_right p q 0#8 _ le_rfl, Nat.sub_self, byteAt]

/-- A 16-bit length has one pair of bytes, so a change of either byte changes it. -/
theorem be16_inj {h h' l l' : Byte} : be16 h l = be16 h' l' ↔ h = h' ∧ l = l' := by
  have hl := l.isLt
  have hl' := l'.isLt
  simp only [be16, BitVec.toNat_eq]
  omega

/-- The length bytes of R121, `L[15:8]` and `L[7:0]`. -/
theorem be16bytes_ofNat (n : Nat) :
    be16bytes (BitVec.ofNat 16 n) = [BitVec.ofNat 8 (n / 256), BitVec.ofNat 8 (n % 256)] := by
  have hhigh : (BitVec.ofNat 16 n).extractLsb' 8 8 = BitVec.ofNat 8 (n / 256) := by
    apply BitVec.eq_of_toNat_eq
    simp [BitVec.extractLsb'_toNat, Nat.shiftRight_eq_div_pow]
    omega
  have hlow : (BitVec.ofNat 16 n).extractLsb' 0 8 = BitVec.ofNat 8 (n % 256) := by
    apply BitVec.eq_of_toNat_eq
    simp [BitVec.extractLsb'_toNat]
  rw [be16bytes, hhigh, hlow]

theorem be16_length_bytes {n : Nat} (h : n ≤ 65535) :
    be16 (BitVec.ofNat 8 (n / 256)) (BitVec.ofNat 8 (n % 256)) = n := by
  simp only [be16, BitVec.toNat_ofNat]
  omega

end Sys2Proof

namespace Sys2Proof.Machine

/-! ## The checksum -/

/-- `sum8` is the library's sum, taken in the ring of bytes: modulo 256. -/
theorem sum8_eq_sum (p : Bytes) : sum8 p = p.sum := rfl

theorem sum8_toNat (p : Bytes) : (sum8 p).toNat = (p.map BitVec.toNat).sum % 256 := by
  induction p with
  | nil => rfl
  | cons b p ih =>
    have hcons : sum8 (b :: p) = b + sum8 p := rfl
    simp [hcons, BitVec.toNat_add, ih]

/-- Writing one byte moves `sum8` by the amount of the change (R120). -/
theorem sum8_set {p : Bytes} {k : Nat} (h : k < p.length) (b : Byte) :
    sum8 (p.set k b) = sum8 p + (b - byteAt p k) := by
  rw [sum8_eq_sum, sum8_eq_sum, List.sum_set', dif_pos h, byteAt_of_lt h, neg_add_eq_sub]

theorem cks_inj {p q : Bytes} : cks p = cks q ↔ sum8 p = sum8 q := sub_right_inj

theorem cks_toNat (p : Bytes) : (cks p).toNat = 255 - (p.map BitVec.toNat).sum % 256 := by
  have h := sum8_toNat p
  have hlt : (p.map BitVec.toNat).sum % 256 < 256 := Nat.mod_lt _ (by decide)
  simp only [cks, BitVec.toNat_sub, h, BitVec.toNat_ofNat]
  omega

/-- The two forms of the validator (R120). -/
theorem eq_cks_iff (p : Bytes) (c : Byte) : c = cks p ↔ ((p.map BitVec.toNat).sum + c.toNat) % 256 = 255 := by
  have hc := c.isLt
  rw [BitVec.toNat_eq, cks_toNat]
  omega

/-- A single changed payload byte changes the checksum (R120). -/
theorem cks_set_ne {p : Bytes} {k : Nat} {b : Byte} (h : k < p.length) (hb : b ≠ byteAt p k) :
    cks (p.set k b) ≠ cks p := by
  rw [Ne, cks_inj, sum8_set h, add_eq_left]
  exact sub_ne_zero.2 hb

/-- Two changes whose amounts sum to 0 are not detected (R120). -/
theorem cks_set_set_cancel {p : Bytes} {j k : Nat} (hj : j < p.length) (hk : k < p.length) (hjk : j ≠ k) (d : Byte) :
    cks ((p.set j (byteAt p j + d)).set k (byteAt p k - d)) = cks p := by
  have hk' : k < (p.set j (byteAt p j + d)).length := by simpa using hk
  rw [cks_inj, sum8_set hk', sum8_set hj, byteAt_set_of_ne hjk]
  abel

/-! ## ENCODE_FRAME -/

/-- The wire frame of a payload (R121): the delimiter, the length with the high byte first, the payload, the checksum. -/
def wireFrame (p : Bytes) : Bytes :=
  0x7E#8 :: BitVec.ofNat 8 (p.length / 256) :: BitVec.ofNat 8 (p.length % 256) :: (p ++ [cks p])

@[simp] theorem wireFrame_length (p : Bytes) : (wireFrame p).length = p.length + 4 := by
  simp [wireFrame]

theorem encodeFrameOp_eq (p : Bytes) :
    encodeFrameOp p = if 65535 < p.length then .error (.frameTooLarge p.length) else .ok (wireFrame p) := by
  simp [encodeFrameOp, be16bytes_ofNat, wireFrame]

/-- ENCODE_FRAME succeeds exactly for the payloads that fit the length field, and then builds the wire frame. -/
theorem encodeFrameOp_eq_ok_iff {p f : Bytes} : encodeFrameOp p = .ok f ↔ p.length ≤ 65535 ∧ f = wireFrame p := by
  rw [encodeFrameOp_eq]
  split
  · next h => simp [h]
  · next h => simp [Nat.le_of_not_lt h, eq_comm]

/-! ## DECODE_FRAME -/

theorem decodeFrameOp_of_no_delimiter {raw : Bytes} (h : raw.head? ≠ some 0x7E#8) :
    decodeFrameOp raw = .error .invalidDelimiter := by
  refine if_pos ?_
  cases raw with
  | nil => exact .inl rfl
  | cons b r => exact .inr (by simpa using h)

theorem decodeFrameOp_of_short {raw : Bytes} (h : raw.head? = some 0x7E#8) (hlen : raw.length < 4) :
    decodeFrameOp raw = .error (.lengthMismatch raw.length) := by
  cases raw with
  | nil => simp at h
  | cons b r =>
    obtain rfl : b = 0x7E#8 := by simpa using h
    rw [decodeFrameOp, if_neg (by simp), if_pos hlen]

/-- A slice with the delimiter and at least four bytes has a length field, a payload and a checksum byte. -/
theorem exists_frame_parts {raw : Bytes} (h : raw.head? = some 0x7E#8) (hlen : 4 ≤ raw.length) :
    ∃ hi lo p c, raw = 0x7E#8 :: hi :: lo :: (p ++ [c]) := by
  match raw, h, hlen with
  | _ :: hi :: lo :: b :: r, h, _ =>
    obtain rfl := Option.some.inj h
    exact ⟨hi, lo, (b :: r).dropLast, (b :: r).getLast (by simp), by rw [List.dropLast_append_getLast]⟩

/-- The checks of DECODE_FRAME after the delimiter, on the parts of a slice (R122). -/
theorem decodeFrameOp_parts (hi lo c : Byte) (p : Bytes) :
    decodeFrameOp (0x7E#8 :: hi :: lo :: (p ++ [c])) =
      if p.length ≠ be16 hi lo then .error (.lengthMismatch (p.length + 4))
      else if c ≠ cks p then .error (.checksumMismatch c (cks p)) else .ok p := by
  by_cases hlen : p.length = be16 hi lo
  · simp [decodeFrameOp, slice, ← hlen, Nat.add_comm 3]
  · simp [decodeFrameOp, hlen]

/-- A frame whose length field agrees with its size fails or succeeds by its checksum alone. -/
theorem decodeFrameOp_of_length {hi lo : Byte} {p : Bytes} (h : p.length = be16 hi lo) (c : Byte) :
    decodeFrameOp (0x7E#8 :: hi :: lo :: (p ++ [c])) =
      if c ≠ cks p then .error (.checksumMismatch c (cks p)) else .ok p := by
  rw [decodeFrameOp_parts, if_neg (not_not.2 h)]

theorem decodeFrameOp_wireFrame {p : Bytes} (h : p.length ≤ 65535) : decodeFrameOp (wireFrame p) = .ok p := by
  rw [wireFrame, decodeFrameOp_of_length (be16_length_bytes h).symm, if_neg (not_not.2 rfl)]

/-! ## One changed byte of a wire frame -/

theorem decodeFrameOp_wireFrame_set_zero (p : Bytes) {b : Byte} (hb : b ≠ byteAt (wireFrame p) 0) :
    decodeFrameOp ((wireFrame p).set 0 b) = .error .invalidDelimiter :=
  decodeFrameOp_of_no_delimiter fun h => hb (Option.some.inj h)

/-- Another length field disagrees with the unchanged size (R125). -/
theorem decodeFrameOp_of_length_changed {hi lo hi' lo' : Byte} {p : Bytes} (c : Byte) (h : p.length = be16 hi lo)
    (hne : ¬ (hi' = hi ∧ lo' = lo)) :
    decodeFrameOp (0x7E#8 :: hi' :: lo' :: (p ++ [c])) = .error (.lengthMismatch (p.length + 4)) := by
  rw [decodeFrameOp_parts, if_pos]
  rw [h, Ne, eq_comm, be16_inj]
  exact hne

theorem decodeFrameOp_wireFrame_set_length {p : Bytes} (hp : p.length ≤ 65535) {k : Nat} (hk : k = 1 ∨ k = 2) {b : Byte}
    (hb : b ≠ byteAt (wireFrame p) k) :
    decodeFrameOp ((wireFrame p).set k b) = .error (.lengthMismatch (wireFrame p).length) := by
  have hlen := (be16_length_bytes hp).symm
  rw [wireFrame_length]
  obtain rfl | rfl := hk
  · exact decodeFrameOp_of_length_changed _ hlen fun h => hb h.1
  · exact decodeFrameOp_of_length_changed _ hlen fun h => hb h.2

/-- Past the length field a changed byte is a payload byte or the checksum byte, and either way the checksum no longer
matches (R125). -/
theorem decodeFrameOp_wireFrame_set_body {p : Bytes} (hp : p.length ≤ 65535) {j : Nat} (hj : j ≤ p.length) {b : Byte}
    (hb : b ≠ byteAt (wireFrame p) (j + 3)) :
    ∃ got computed, decodeFrameOp ((wireFrame p).set (j + 3) b) = .error (.checksumMismatch got computed) := by
  have hlen := (be16_length_bytes hp).symm
  have hset : (wireFrame p).set (j + 3) b = 0x7E#8 :: BitVec.ofNat 8 (p.length / 256) ::
      BitVec.ofNat 8 (p.length % 256) :: (p ++ [cks p]).set j b := rfl
  have hb' : b ≠ byteAt (p ++ [cks p]) j := hb
  rw [hset]
  obtain hlt | rfl := Nat.lt_or_eq_of_le hj
  · have hcks : cks p ≠ cks (p.set j b) := (cks_set_ne hlt (byteAt_append_left hlt _ ▸ hb')).symm
    rw [List.set_append_left _ _ hlt, decodeFrameOp_of_length (by simpa using hlen), if_pos hcks]
    exact ⟨_, _, rfl⟩
  · have hcks : b ≠ cks p := by simpa using hb'
    rw [List.set_append_right _ _ le_rfl, Nat.sub_self, List.set_cons_zero, decodeFrameOp_of_length hlen, if_pos hcks]
    exact ⟨_, _, rfl⟩

/-! ## The two requests -/

theorem State.finishWith_ok {α : Type} (s : State) (mk : α → Result) (a : α) :
    s.finishWith mk (.ok a) = answered s (.ok (mk a)) := rfl

theorem State.finishWith_error {α : Type} (s : State) (mk : α → Result) (e : Err) :
    s.finishWith mk (.error e) = answered s (.err e) := rfl

theorem exec_encodeFrame (p : Bytes) (s : State) :
    exec (.encodeFrame p) s = .next (s.finishWith .bytes (encodeFrameOp p)) := rfl

theorem exec_decodeFrame (raw : Bytes) (s : State) :
    exec (.decodeFrame raw) s = .next (s.finishWith .bytes (decodeFrameOp raw)) := rfl

/-! ## The statements -/

/-- Settles O7: each law is a lemma about `sum8` or `cks`; the corner cases are the value read at 0 and 255. -/
theorem checksumLaws : Obligations.ChecksumLaws := by
  refine ⟨cks_toNat, eq_cks_iff, rfl, fun p h => ?_, fun p h => ?_, fun p k d hk hd => ?_, ?_, ?_, by decide⟩
  · exact ((eq_cks_iff p _).2 (by simp [Nat.add_mod, h])).symm
  · exact ((eq_cks_iff p _).2 (by simpa using h)).symm
  · exact cks_set_ne hk (by simpa using hd)
  · rintro p c d rfl hd
    simpa using hd
  · intro p j k d hj hk hjk
    exact cks_set_set_cancel hj hk hjk d

/-- Settles O8: the length bytes of `be16bytes` are the quotient and the remainder by 256. -/
theorem encodeFrameBuildsTheWireFrame : Obligations.EncodeFrameBuildsTheWireFrame := by
  intro p s
  rw [exec_encodeFrame, encodeFrameOp_eq]
  split
  · rfl
  · simp [State.finishWith_ok, wireFrame]

/-- Settles O9: a slice without the delimiter or with fewer than four bytes fails at once, and any other has the parts
that the later checks read. -/
theorem decodeFrameChecksInOrder : Obligations.DecodeFrameChecksInOrder := by
  intro raw s
  rw [exec_decodeFrame]
  by_cases hdelim : raw.head? = some 0x7E#8
  · by_cases hshort : raw.length < 4
    · rw [decodeFrameOp_of_short hdelim hshort, if_neg (not_not.2 hdelim), if_pos hshort, State.finishWith_error]
    · obtain ⟨hi, lo, p, c, rfl⟩ := exists_frame_parts hdelim (Nat.le_of_not_lt hshort)
      have hlast : byteAt (0x7E#8 :: hi :: lo :: (p ++ [c])) (p.length + 3) = c := byteAt_append_length p [c]
      have hbody : ((0x7E#8 :: hi :: lo :: (p ++ [c])).drop 3).dropLast = p := List.dropLast_concat
      have hsize : (0x7E#8 :: hi :: lo :: (p ++ [c])).length = p.length + 4 := by simp
      rw [if_neg (not_not.2 hdelim), if_neg hshort, hbody, hsize, Nat.add_sub_assoc (by decide), hlast,
        decodeFrameOp_parts]
      simp only [byteAt_cons_succ, byteAt_cons_zero, ne_eq, Nat.add_right_cancel_iff]
      split
      · rfl
      · split <;> rfl
  · rw [decodeFrameOp_of_no_delimiter hdelim, if_pos hdelim, State.finishWith_error]

/-- Settles O10: the frame is `wireFrame p`. -/
theorem decodeOfEncodedFrame : Obligations.DecodeOfEncodedFrame := by
  intro p s hp
  refine ⟨wireFrame p, ?_, ?_⟩
  · rw [exec_encodeFrame, encodeFrameOp_eq_ok_iff.2 ⟨hp, rfl⟩, State.finishWith_ok]
  · rw [exec_decodeFrame, decodeFrameOp_wireFrame hp, State.finishWith_ok]

/-- Settles O11: the position of the changed byte says which check fails. -/
theorem singleByteCorruptionIsDetected : Obligations.SingleByteCorruptionIsDetected := by
  intro p f k b hf hk hb
  obtain ⟨hp, rfl⟩ := encodeFrameOp_eq_ok_iff.1 hf
  refine ⟨?_, fun hk => decodeFrameOp_wireFrame_set_length hp hk hb, fun hk3 => ?_⟩
  · rintro rfl
    exact decodeFrameOp_wireFrame_set_zero p hb
  · obtain ⟨j, rfl⟩ := Nat.exists_eq_add_of_le' hk3
    exact decodeFrameOp_wireFrame_set_body hp (by rw [wireFrame_length] at hk; omega) hb

end Sys2Proof.Machine
end

section
/-! The synchronizer (41_synchronizer.md R140 to R152). First the search for the delimiter and the reads behind it, then
what SYNC_STEP answers for each form of the buffer, then the five statements. -/

namespace Sys2Proof

/-! ## Reads of parts of a buffer -/

@[simp] theorem byteAt_append_add (g s : Bytes) (k : Nat) : byteAt (g ++ s) (g.length + k) = byteAt s k := by
  rw [byteAt, List.getD_append_right _ _ _ _ (Nat.le_add_right _ _), Nat.add_sub_cancel_left, byteAt]

@[simp] theorem slice_append_add (g s : Bytes) (k : Nat) : slice (g ++ s) g.length (g.length + k) = s.take k := by
  simp [slice]

theorem byteAt_take {i n : Nat} (h : i < n) (s : Bytes) : byteAt (s.take n) i = byteAt s i := by
  simp [byteAt, List.getElem?_take_of_lt h]

theorem slice_take {j n : Nat} (h : j ≤ n) (s : Bytes) (i : Nat) : slice (s.take n) i j = slice s i j := by
  rw [slice, List.drop_take, List.take_take, Nat.min_eq_left (Nat.sub_le_sub_right h i), slice]

end Sys2Proof

namespace Sys2Proof.Machine

/-! ## The search for the delimiter -/

theorem firstIndex_eq_none {s : Bytes} {b : Byte} (h : b ∉ s) : firstIndex s b = none := by
  induction s with
  | nil => rfl
  | cons x s ih =>
    obtain ⟨hx, hs⟩ := List.ne_and_not_mem_of_not_mem_cons h
    rw [firstIndex, if_neg (Ne.symm hx), ih hs]

theorem firstIndex_append_cons {g : Bytes} {b : Byte} (h : b ∉ g) (r : Bytes) :
    firstIndex (g ++ b :: r) b = some g.length := by
  induction g with
  | nil => exact if_pos rfl
  | cons x g ih =>
    obtain ⟨hx, hg⟩ := List.ne_and_not_mem_of_not_mem_cons h
    rw [List.cons_append, firstIndex, if_neg (Ne.symm hx), ih hg, List.length_cons]

/-- The first delimiter stands at the front exactly when nothing precedes it. -/
theorem head?_append_delimiter {g : Bytes} (hg : 0x7E#8 ∉ g) (r : Bytes) :
    (g ++ 0x7E#8 :: r).head? = some 0x7E#8 ↔ g = [] := by
  cases g with
  | nil => simp
  | cons x g =>
    obtain ⟨hx, -⟩ := List.ne_and_not_mem_of_not_mem_cons hg
    simpa using hx.symm

/-! ## The candidate at a delimiter -/

theorem incompleteCandidate_delimiter (r : Bytes) :
    incompleteCandidate (0x7E#8 :: r) ↔ r.length < 3 ∨ r.length + 1 < be16 (byteAt r 0) (byteAt r 1) + 4 := by
  rw [incompleteCandidate, List.length_cons, byteAt_cons_succ, byteAt_cons_succ, Nat.succ_lt_succ_iff]

/-- A candidate that is not incomplete has its length field, a payload of that length, a checksum byte and what
follows the frame. -/
theorem exists_candidate_parts {r : Bytes} (h : ¬ incompleteCandidate (0x7E#8 :: r)) :
    ∃ hi lo p c ext, r = hi :: lo :: (p ++ c :: ext) ∧ p.length = be16 hi lo := by
  rw [incompleteCandidate_delimiter] at h
  match r, h with
  | [], h | [_], h => simp at h
  | hi :: lo :: b, h =>
    have hlt : be16 hi lo < b.length := by
      simp only [List.length_cons, byteAt_cons_zero, byteAt_cons_succ] at h
      omega
    refine ⟨hi, lo, b.take (be16 hi lo), b[be16 hi lo], b.drop (be16 hi lo + 1), ?_, ?_⟩
    · rw [← List.drop_eq_getElem_cons hlt, List.take_append_drop]
    · exact List.length_take_of_le hlt.le

theorem not_incompleteCandidate_frame {hi lo : Byte} {p : Bytes} (hp : p.length = be16 hi lo) (c : Byte)
    (ext : Bytes) : ¬ incompleteCandidate (0x7E#8 :: hi :: lo :: (p ++ c :: ext)) := by
  rw [incompleteCandidate_delimiter, byteAt_cons_zero, byteAt_cons_succ, byteAt_cons_zero, ← hp]
  simp only [List.length_cons, List.length_append]
  omega

/-- The forms of a buffer that SYNC_STEP tells apart (R141, R142): no delimiter, or noise `g` before the first one, and
behind it an incomplete candidate or a whole one with its length field, payload and checksum byte. -/
inductive FirstCandidate : Bytes → Prop
  | absent {buf : Bytes} (h : 0x7E#8 ∉ buf) : FirstCandidate buf
  | incomplete {g r : Bytes} (hg : 0x7E#8 ∉ g) (h : incompleteCandidate (0x7E#8 :: r)) :
      FirstCandidate (g ++ 0x7E#8 :: r)
  | whole {g p ext : Bytes} {hi lo c : Byte} (hg : 0x7E#8 ∉ g) (hp : p.length = be16 hi lo) :
      FirstCandidate (g ++ 0x7E#8 :: hi :: lo :: (p ++ c :: ext))

theorem firstCandidate (buf : Bytes) : FirstCandidate buf := by
  by_cases hmem : 0x7E#8 ∈ buf
  · obtain ⟨g, r, rfl, hg⟩ := List.eq_append_cons_of_mem hmem
    by_cases h : incompleteCandidate (0x7E#8 :: r)
    · exact .incomplete hg h
    · obtain ⟨hi, lo, p, c, ext, rfl, hp⟩ := exists_candidate_parts h
      exact .whole hg hp
  · exact .absent hmem

/-! ## SYNC_STEP by the form of the buffer -/

theorem syncStepOp_absent {buf : Bytes} (h : 0x7E#8 ∉ buf) (mode : SyncMode) (atEnd : Bool) :
    syncStepOp mode buf atEnd = ⟨buf.length, none, none⟩ := by
  cases mode with
  | literal => rw [syncStepOp, syncStepLiteral, firstIndex_eq_none h]
  | hunt => rw [syncStepOp, syncStepHunt, firstIndex_eq_none h]

/-- LITERAL at the first delimiter (R141). -/
theorem syncStepOp_literal_delimiter {g : Bytes} (hg : 0x7E#8 ∉ g) (r : Bytes) (atEnd : Bool) :
    syncStepOp .literal (g ++ 0x7E#8 :: r) atEnd =
      if r.length < 3 then ⟨g.length, none, none⟩
      else if r.length + 1 < be16 (byteAt r 0) (byteAt r 1) + 4 then ⟨g.length, none, none⟩
      else ⟨g.length + (be16 (byteAt r 0) (byteAt r 1) + 4),
        some ((0x7E#8 :: r).take (be16 (byteAt r 0) (byteAt r 1) + 4)), none⟩ := by
  simp [syncStepOp, syncStepLiteral, firstIndex_append_cons hg]

/-- HUNT at the first delimiter (R142). -/
theorem syncStepOp_hunt_delimiter {g : Bytes} (hg : 0x7E#8 ∉ g) (r : Bytes) (atEnd : Bool) :
    syncStepOp .hunt (g ++ 0x7E#8 :: r) atEnd =
      if r.length < 3 ∨ r.length + 1 < be16 (byteAt r 0) (byteAt r 1) + 4 then
        (if atEnd then ⟨g.length + 1, none, some .truncated⟩ else ⟨g.length, none, none⟩)
      else if byteAt r (be16 (byteAt r 0) (byteAt r 1) + 2) = cks ((r.drop 2).take (be16 (byteAt r 0) (byteAt r 1))) then
        ⟨g.length + (be16 (byteAt r 0) (byteAt r 1) + 4),
          some ((0x7E#8 :: r).take (be16 (byteAt r 0) (byteAt r 1) + 4)), none⟩
      else ⟨g.length + 1, none, some .badChecksum⟩ := by
  have hcks (n : Nat) : byteAt ((0x7E#8 :: r).take (n + 4)) (3 + n) = byteAt r (n + 2) := by
    rw [byteAt_take (by omega), Nat.add_comm, byteAt_cons_succ]
  have hbody (n : Nat) : slice ((0x7E#8 :: r).take (n + 4)) 3 (3 + n) = (r.drop 2).take n := by
    rw [slice_take (by omega), slice, Nat.add_sub_cancel_left, List.drop_succ_cons]
  simp [syncStepOp, syncStepHunt, firstIndex_append_cons hg, hcks, hbody, huntIncomplete, ite_or,
    -List.take_succ_cons]

theorem syncStepOp_literal_incomplete {g r : Bytes} (hg : 0x7E#8 ∉ g) (h : incompleteCandidate (0x7E#8 :: r))
    (atEnd : Bool) : syncStepOp .literal (g ++ 0x7E#8 :: r) atEnd = ⟨g.length, none, none⟩ := by
  rw [syncStepOp_literal_delimiter hg, ← ite_or, if_pos ((incompleteCandidate_delimiter r).1 h)]

theorem syncStepOp_hunt_incomplete {g r : Bytes} (hg : 0x7E#8 ∉ g) (h : incompleteCandidate (0x7E#8 :: r))
    (atEnd : Bool) : syncStepOp .hunt (g ++ 0x7E#8 :: r) atEnd =
      if atEnd then ⟨g.length + 1, none, some .truncated⟩ else ⟨g.length, none, none⟩ := by
  rw [syncStepOp_hunt_delimiter hg, if_pos ((incompleteCandidate_delimiter r).1 h)]

section Whole

variable {g p : Bytes} {hi lo : Byte} (hg : 0x7E#8 ∉ g) (hp : p.length = be16 hi lo) (c : Byte) (ext : Bytes)
  (atEnd : Bool)
include hg hp

/-- LITERAL emits a whole candidate and leaves what follows it. -/
theorem syncStepOp_literal_whole : syncStepOp .literal (g ++ 0x7E#8 :: hi :: lo :: (p ++ c :: ext)) atEnd =
    ⟨g.length + (p.length + 4), some (0x7E#8 :: hi :: lo :: (p ++ [c])), none⟩ := by
  have h := (incompleteCandidate_delimiter _).not.1 (not_incompleteCandidate_frame hp c ext)
  rw [syncStepOp_literal_delimiter hg, ← ite_or, if_neg h]
  simp [← hp, List.take_length_add_append]

/-- HUNT emits a whole candidate when its checksum is valid, and gives up its delimiter otherwise. -/
theorem syncStepOp_hunt_whole : syncStepOp .hunt (g ++ 0x7E#8 :: hi :: lo :: (p ++ c :: ext)) atEnd =
    if c = cks p then ⟨g.length + (p.length + 4), some (0x7E#8 :: hi :: lo :: (p ++ [c])), none⟩
    else ⟨g.length + 1, none, some .badChecksum⟩ := by
  have h := (incompleteCandidate_delimiter _).not.1 (not_incompleteCandidate_frame hp c ext)
  rw [syncStepOp_hunt_delimiter hg, if_neg h]
  simp [← hp, List.take_length_add_append]

end Whole

/-- Both modes emit the first frame whole, whatever bytes it holds and whatever follows it (R152). -/
theorem syncStepOp_wireFrame {g p : Bytes} (hg : 0x7E#8 ∉ g) (hp : p.length ≤ 65535) (mode : SyncMode) (ext : Bytes)
    (atEnd : Bool) : syncStepOp mode (g ++ (wireFrame p ++ ext)) atEnd =
      ⟨g.length + (wireFrame p).length, some (wireFrame p), none⟩ := by
  have hlen := (be16_length_bytes hp).symm
  have hframe : wireFrame p ++ ext = 0x7E#8 :: BitVec.ofNat 8 (p.length / 256) :: BitVec.ofNat 8 (p.length % 256) ::
      (p ++ cks p :: ext) := by simp [wireFrame]
  rw [hframe, wireFrame_length]
  cases mode with
  | literal => exact syncStepOp_literal_whole hg hlen ..
  | hunt => rw [syncStepOp_hunt_whole hg hlen, if_pos rfl, wireFrame]

/-! ## Emission and progress -/

theorem syncStepOp_hunt_frame_decodes {buf f : Bytes} {atEnd : Bool}
    (h : (syncStepOp .hunt buf atEnd).frame = some f) : ∃ p, decodeFrameOp f = .ok p := by
  cases firstCandidate buf with
  | absent habs => simp [syncStepOp_absent habs] at h
  | incomplete hg hinc =>
    rw [syncStepOp_hunt_incomplete hg hinc] at h
    cases atEnd <;> simp at h
  | @whole g p ext hi lo c hg hp =>
    rw [syncStepOp_hunt_whole hg hp] at h
    split at h
    · next hc =>
      obtain rfl := Option.some.inj h
      exact ⟨p, by rw [decodeFrameOp_of_length hp, if_neg (not_not.2 hc)]⟩
    · simp at h

/-- Before the end of the stream HUNT waits exactly when LITERAL does: when there is no whole candidate. -/
theorem syncStepOp_hunt_waits_iff (buf : Bytes) :
    ((syncStepOp .hunt buf false).frame = none ∧ (syncStepOp .hunt buf false).note = none) ↔
      (syncStepOp .literal buf false).frame = none := by
  cases firstCandidate buf with
  | absent habs => simp [syncStepOp_absent habs]
  | incomplete hg hinc => simp [syncStepOp_hunt_incomplete hg hinc, syncStepOp_literal_incomplete hg hinc]
  | whole hg hp =>
    rw [syncStepOp_hunt_whole hg hp, syncStepOp_literal_whole hg hp]
    split <;> simp

/-- What R144 names for a call that consumes nothing: no bytes, or an incomplete candidate at the front that is waited
for. -/
def stalls (mode : SyncMode) (buf : Bytes) (atEnd : Bool) : Prop :=
  buf = [] ∨ (buf.head? = some 0x7E#8 ∧ incompleteCandidate buf ∧ (mode = .hunt → atEnd = false))

theorem stalls_incomplete_iff {g r : Bytes} (hg : 0x7E#8 ∉ g) (h : incompleteCandidate (0x7E#8 :: r)) (mode : SyncMode)
    (atEnd : Bool) : stalls mode (g ++ 0x7E#8 :: r) atEnd ↔ g = [] ∧ (mode = .hunt → atEnd = false) := by
  rw [stalls, head?_append_delimiter hg]
  constructor
  · rintro (hnil | ⟨hnil, -, hmode⟩)
    · simp at hnil
    · exact ⟨hnil, hmode⟩
  · rintro ⟨rfl, hmode⟩
    exact .inr ⟨rfl, h, hmode⟩

theorem not_stalls_whole {g p : Bytes} {hi lo : Byte} (hg : 0x7E#8 ∉ g) (hp : p.length = be16 hi lo) (c : Byte)
    (ext : Bytes) (mode : SyncMode) (atEnd : Bool) :
    ¬ stalls mode (g ++ 0x7E#8 :: hi :: lo :: (p ++ c :: ext)) atEnd := by
  rw [stalls, head?_append_delimiter hg]
  rintro (hnil | ⟨rfl, hinc, -⟩)
  · simp at hnil
  · exact not_incompleteCandidate_frame hp c ext hinc

theorem syncStepOp_consumed_eq_zero_iff (mode : SyncMode) (buf : Bytes) (atEnd : Bool) :
    (syncStepOp mode buf atEnd).consumed = 0 ↔ stalls mode buf atEnd := by
  cases firstCandidate buf with
  | absent habs =>
    have hhead : buf.head? ≠ some 0x7E#8 := fun h => habs (List.mem_of_mem_head? h)
    simp [syncStepOp_absent habs, stalls, hhead]
  | incomplete hg hinc =>
    rw [stalls_incomplete_iff hg hinc]
    cases mode with
    | literal => simp [syncStepOp_literal_incomplete hg hinc]
    | hunt => cases atEnd <;> simp [syncStepOp_hunt_incomplete hg hinc]
  | whole hg hp =>
    simp only [not_stalls_whole hg hp, iff_false]
    cases mode with
    | literal => simp [syncStepOp_literal_whole hg hp]
    | hunt =>
      rw [syncStepOp_hunt_whole hg hp]
      split <;> simp

theorem syncStepOp_frame_eq_none_of_stalls {mode : SyncMode} {buf : Bytes} {atEnd : Bool} (h : stalls mode buf atEnd) :
    (syncStepOp mode buf atEnd).frame = none := by
  cases firstCandidate buf with
  | absent habs => rw [syncStepOp_absent habs]
  | incomplete hg hinc =>
    cases mode with
    | literal => rw [syncStepOp_literal_incomplete hg hinc]
    | hunt => cases atEnd <;> simp [syncStepOp_hunt_incomplete hg hinc]
  | whole hg hp => exact (not_stalls_whole hg hp _ _ _ _ h).elim

/-- Calls enough for every byte reach a buffer on which the next call consumes nothing (R144). -/
theorem drainBuffer_consumed_eq_zero (mode : SyncMode) (n : Nat) (buf : Bytes)
    (h : buf.length ≤ n ∨ (syncStepOp mode buf true).consumed = 0) :
    (syncStepOp mode (drainBuffer mode n buf) true).consumed = 0 := by
  induction n generalizing buf with
  | zero =>
    obtain h | h := h
    · exact (syncStepOp_consumed_eq_zero_iff ..).2 (.inl (List.eq_nil_of_length_eq_zero (Nat.le_zero.1 h)))
    · exact h
  | succ n ih =>
    rw [drainBuffer]
    by_cases hz : (syncStepOp mode buf true).consumed = 0
    · rw [hz, List.drop_zero]
      exact ih buf (.inr hz)
    · refine ih _ (.inl ?_)
      have hlen := h.resolve_right hz
      rw [List.length_drop]
      omega

theorem drainBuffer_stalls (mode : SyncMode) (buf : Bytes) : stalls mode (drainBuffer mode buf.length buf) true :=
  (syncStepOp_consumed_eq_zero_iff ..).1 (drainBuffer_consumed_eq_zero mode _ buf (.inl le_rfl))

/-! ## The request -/

theorem exec_syncStep (buf : Bytes) (atEnd : Bool) (s : State) : exec (.syncStep buf atEnd) s =
    .next (answered s (.ok (.sync (syncStepOp s.cfg.syncMode buf atEnd)))) := rfl

/-! ## The statements -/

/-- Settles O13: the first delimiter, or its absence, fixes the answer. -/
theorem literalModeTakesTheFirstCandidate : Obligations.LiteralModeTakesTheFirstCandidate :=
  ⟨fun _ atEnd h => syncStepOp_absent h .literal atEnd, fun _ r atEnd hg => syncStepOp_literal_delimiter hg r atEnd⟩

/-- Settles O14: the answer at the first delimiter, what it says of an emitted frame, and the comparison with
LITERAL. -/
theorem huntModeTakesTheFirstValidCandidate : Obligations.HuntModeTakesTheFirstValidCandidate :=
  ⟨fun _ atEnd h => syncStepOp_absent h .hunt atEnd, fun _ r atEnd hg => syncStepOp_hunt_delimiter hg r atEnd,
    fun _ _ _ => syncStepOp_hunt_frame_decodes, syncStepOp_hunt_waits_iff⟩

/-- Settles O15: a call consumes nothing exactly where it `stalls`, and draining ends there, which in HUNT mode at the end of
the stream means an empty buffer. -/
theorem synchronizerMakesProgress : Obligations.SynchronizerMakesProgress := by
  refine ⟨fun mode buf atEnd => ?_, fun mode buf atEnd h => ?_, fun buf => ?_, ?_⟩
  · rw [syncStepOp_consumed_eq_zero_iff]
    exact and_iff_left_of_imp syncStepOp_frame_eq_none_of_stalls
  · exact Nat.one_le_iff_ne_zero.2 ((syncStepOp_consumed_eq_zero_iff mode buf atEnd).not.2 h)
  · obtain hnil | ⟨-, -, hend⟩ := drainBuffer_stalls .hunt buf
    · exact hnil
    · exact absurd (hend rfl) (by decide)
  · rintro buf r rfl
    obtain hnil | ⟨hhead, hinc, -⟩ := drainBuffer_stalls .literal buf
    · exact .inl hnil
    · exact .inr ⟨hhead, hinc, drainBuffer_consumed_eq_zero .literal _ buf (.inl le_rfl)⟩

/-- Settles O17: the frame is a whole candidate with no noise before it, whose checksum is that of its payload. -/
theorem framesAreFoundWhole : Obligations.FramesAreFoundWhole := by
  intro mode p f ext atEnd hf
  obtain ⟨hp, rfl⟩ := encodeFrameOp_eq_ok_iff.1 hf
  simpa using syncStepOp_wireFrame List.not_mem_nil hp mode ext atEnd

/-- Settles O19: in the example, HUNT gives up the delimiter of an incomplete candidate behind one byte of noise. -/
theorem syncStepRequestIsPure : Obligations.SyncStepRequestIsPure := by
  refine ⟨exec_syncStep, fun s hs => ?_⟩
  have hnoise : 0x7E#8 ∉ [0x41#8] := by decide
  have hinc : incompleteCandidate [0x7E#8, 0x00#8] := .inl (by decide)
  have hstep : syncStepOp .hunt [0x41#8, 0x7E#8, 0x00#8] true = ⟨2, none, some .truncated⟩ :=
    syncStepOp_hunt_incomplete hnoise hinc true
  rw [exec_syncStep, hs, hstep]

end Sys2Proof.Machine
end

section
/-! The requests of the tag pool (42_tag_pool.md R170 to R179). First the answer of each request for each state of the
mark or the slot that it names, then the pool after a number of ACQUIREs, then the four statements. -/

namespace Sys2Proof.Machine

section Requests

variable {s : State}

/-! ## ACQUIRE -/

theorem SessionStatus.ended_eq_some_iff {x : SessionStatus} {r : Reason} :
    x.ended = some r ↔ x = .closing r ∨ x = .closed r := by
  cases x <;> simp [SessionStatus.ended]

theorem lowestFree_unique {m m' : Mark} (h : lowestFree s m) (h' : lowestFree s m') : m = m' := by
  obtain ⟨hm, hfree, hbelow⟩ := h
  obtain ⟨hm', hfree', hbelow'⟩ := h'
  have hle : m'.toNat ≤ m.toNat := Nat.le_of_not_lt fun hlt => hbelow' m hm hlt hfree
  have hge : m.toNat ≤ m'.toNat := Nat.le_of_not_lt fun hlt => hbelow m' hm' hlt hfree'
  exact BitVec.eq_of_toNat_eq (Nat.le_antisymm hge hle)

theorem State.freeMark_eq_none_iff : s.freeMark = none ↔ allReserved s := by
  refine ⟨fun h m hm => s.freeMark_none h m hm, fun hall => ?_⟩
  cases h : s.freeMark with
  | none => rfl
  | some m =>
    obtain ⟨hm, hfree, -⟩ := s.freeMark_some m h
    exact absurd hfree (hall m hm)

theorem State.freeMark_eq_some_iff {m : Mark} : s.freeMark = some m ↔ lowestFree s m := by
  refine ⟨s.freeMark_some m, fun hlow => ?_⟩
  cases h : s.freeMark with
  | none =>
    obtain ⟨hm, hfree, -⟩ := hlow
    exact absurd hfree (s.freeMark_none h m hm)
  | some m' => rw [lowestFree_unique (s.freeMark_some m' h) hlow]

theorem State.reserve_poolAt_ne_none {m m' : Mark} :
    (s.reserve m).poolAt m' ≠ none ↔ m' = m ∨ s.poolAt m' ≠ none := by
  rw [State.reserve_poolAt]
  split
  · next h => exact iff_of_true (by simp) (.inl h)
  · next h => rw [or_iff_right h]

/-- Once the only free mark is taken, none is free. -/
theorem allReserved_reserve {m : Mark} (h : ∀ m', m' ≠ 0#8 → m' ≠ m → s.poolAt m' ≠ none) :
    allReserved (s.reserve m) :=
  fun m' hm' => State.reserve_poolAt_ne_none.2 ((eq_or_ne m' m).imp_right (h m' hm'))

theorem exec_acquire (s : State) : exec .acquire s = execAcquire s := rfl

theorem exec_acquire_of_ended {r : Reason} (h : s.sess.ended = some r) :
    exec .acquire s = .next (answered s (.err (.transportClosed r))) := by
  simp only [exec_acquire, execAcquire, acquireOp, h]
  rfl

theorem exec_acquire_of_allReserved (hs : s.sess = .isOpen) (h : allReserved s) :
    exec .acquire s = .next (answered s (.err .noMarksAvailable)) := by
  simp only [exec_acquire, execAcquire, acquireOp, hs, SessionStatus.ended, State.freeMark_eq_none_iff.2 h]
  rfl

theorem exec_acquire_of_lowestFree {m : Mark} (hs : s.sess = .isOpen) (h : lowestFree s m) :
    exec .acquire s = .next (answered (s.reserve m) (.ok (.acquired m s.nextTicket))) := by
  simp only [exec_acquire, execAcquire, acquireOp, hs, SessionStatus.ended, State.freeMark_eq_some_iff.2 h]
  rfl

/-! ## RELEASE -/

theorem exec_release (m : Mark) (resp : Bytes) (s : State) : exec (.release m resp) s = execRelease m resp s :=
  rfl

theorem exec_release_of_held {m : Mark} {t : Ticket} (h : s.poolAt m = some t) (resp : Bytes) :
    exec (.release m resp) s = .next (answered ((s.setPool m none).setSlot t (.done resp)) (.ok .unit)) := by
  simp only [exec_release, execRelease, releaseError, releaseOp, h]
  rfl

theorem exec_release_of_free {m : Mark} (h : s.poolAt m = none) (resp : Bytes) :
    exec (.release m resp) s = .next (answered (s.emit (.unknownMark m)) (.err (.unknownMark m))) := by
  simp only [exec_release, execRelease, releaseError, releaseOp, h]
  rfl

/-! ## ABANDON -/

theorem exec_abandon (m : Mark) (t : Ticket) (code : Byte) (s : State) :
    exec (.abandon m t code) s = execAbandon m t code s :=
  rfl

theorem exec_abandon_of_bad_code {code : Byte} (h : errOfCode s.freeCount code = none) (m : Mark) (t : Ticket) :
    exec (.abandon m t code) s = .next (answered s (.err .invalidRequest)) := by
  simp only [exec_abandon, execAbandon, h]
  rfl

theorem exec_abandon_of_held {m : Mark} {t : Ticket} {code : Byte} {e : Err}
    (hcode : errOfCode s.freeCount code = some e) (h : s.poolAt m = some t) :
    exec (.abandon m t code) s = .next (answered
      { (s.setPool m none).setSlot t (.failed e) with freeCount := s.freeCount + 1 } (.ok .unit)) := by
  simp only [exec_abandon, execAbandon, abandonOp, hcode, if_pos h]
  rfl

theorem exec_abandon_of_not_held {m : Mark} {t : Ticket} {code : Byte} {e : Err}
    (hcode : errOfCode s.freeCount code = some e) (h : s.poolAt m ≠ some t) :
    exec (.abandon m t code) s = .next (answered s (.ok .unit)) := by
  simp only [exec_abandon, execAbandon, abandonOp, hcode, if_neg h]
  rfl

/-! ## AWAIT -/

theorem exec_awaitSlot (t : Ticket) (s : State) : exec (.awaitSlot t) s = execAwait t s := rfl

theorem exec_awaitSlot_of_unused {t : Ticket} (h : s.slotAt t = .unused) :
    exec (.awaitSlot t) s = .next (answered s (.err .invalidRequest)) := by
  simp only [exec_awaitSlot, execAwait, awaitOp, h, State.finishWith_error]

theorem exec_awaitSlot_of_retired {t : Ticket} (h : s.slotAt t = .retired) :
    exec (.awaitSlot t) s = .next (answered s (.err .invalidRequest)) := by
  simp only [exec_awaitSlot, execAwait, awaitOp, h, State.finishWith_error]

theorem exec_awaitSlot_of_waiting {t : Ticket} (h : s.slotAt t = .waiting) :
    exec (.awaitSlot t) s = .next (s.setCall s.reqCaller (.awaiting t)) := by
  simp only [exec_awaitSlot, execAwait, awaitOp, h]

theorem exec_awaitSlot_of_done {t : Ticket} {b : Bytes} (h : s.slotAt t = .done b) :
    exec (.awaitSlot t) s = .next (answered (s.setSlot t .retired) (.ok (.bytes b))) := by
  simp only [exec_awaitSlot, execAwait, awaitOp, h, State.finishWith_ok]

theorem exec_awaitSlot_of_failed {t : Ticket} {e : Err} (h : s.slotAt t = .failed e) :
    exec (.awaitSlot t) s = .next (answered (s.setSlot t .retired) (.err e)) := by
  simp only [exec_awaitSlot, execAwait, awaitOp, h, State.finishWith_error]

/-! ## The three requests do not read the session status -/

theorem exec_release_setSess {m : Mark} {resp : Bytes} {u : State} (x : SessionStatus)
    (h : exec (.release m resp) s = .next u) :
    exec (.release m resp) { s with sess := x } = .next { u with sess := x } := by
  cases hm : s.poolAt m with
  | none =>
    cases (exec_release_of_free hm resp).symm.trans h
    exact exec_release_of_free (s := { s with sess := x }) hm resp
  | some t =>
    cases (exec_release_of_held hm resp).symm.trans h
    exact exec_release_of_held (s := { s with sess := x }) hm resp

theorem exec_abandon_setSess {m : Mark} {t : Ticket} {code : Byte} {u : State} (x : SessionStatus)
    (h : exec (.abandon m t code) s = .next u) :
    exec (.abandon m t code) { s with sess := x } = .next { u with sess := x } := by
  cases hcode : errOfCode s.freeCount code with
  | none =>
    cases (exec_abandon_of_bad_code hcode m t).symm.trans h
    exact exec_abandon_of_bad_code (s := { s with sess := x }) hcode m t
  | some e =>
    by_cases hm : s.poolAt m = some t
    · cases (exec_abandon_of_held hcode hm).symm.trans h
      exact exec_abandon_of_held (s := { s with sess := x }) hcode hm
    · cases (exec_abandon_of_not_held hcode hm).symm.trans h
      exact exec_abandon_of_not_held (s := { s with sess := x }) hcode hm

theorem exec_awaitSlot_setSess {t : Ticket} {u : State} (x : SessionStatus) (h : exec (.awaitSlot t) s = .next u) :
    exec (.awaitSlot t) { s with sess := x } = .next { u with sess := x } := by
  cases ht : s.slotAt t with
  | unused =>
    cases (exec_awaitSlot_of_unused ht).symm.trans h
    exact exec_awaitSlot_of_unused (s := { s with sess := x }) ht
  | waiting =>
    cases (exec_awaitSlot_of_waiting ht).symm.trans h
    exact exec_awaitSlot_of_waiting (s := { s with sess := x }) ht
  | done b =>
    cases (exec_awaitSlot_of_done ht).symm.trans h
    exact exec_awaitSlot_of_done (s := { s with sess := x }) ht
  | failed e =>
    cases (exec_awaitSlot_of_failed ht).symm.trans h
    exact exec_awaitSlot_of_failed (s := { s with sess := x }) ht
  | retired =>
    cases (exec_awaitSlot_of_retired ht).symm.trans h
    exact exec_awaitSlot_of_retired (s := { s with sess := x }) ht

/-! ## A number of ACQUIREs, one after the other -/

theorem mark_ofNat_toNat {n : Nat} (h : n < 256) : (BitVec.ofNat 8 n : Mark).toNat = n := by
  rw [BitVec.toNat_ofNat, Nat.mod_eq_of_lt h]

theorem execTimes_succ {i : Instr} {n : Nat} {u : State} (h : execTimes i n s = .next u) :
    execTimes i (n + 1) s = exec i u := by
  rw [execTimes, h]

/-- What `n` ACQUIREs make of a session `s` with no reserved mark: they have returned the marks 1 to `n` in that order,
each with the next ticket, and these marks are the reserved ones. -/
structure AfterAcquires (s : State) (n : Nat) (u : State) : Prop where
  sess : u.sess = .isOpen
  reqCaller : u.reqCaller = s.reqCaller
  nextTicket : u.nextTicket = s.nextTicket + n
  completions : u.completions = s.completions ++
    (List.range n).map (fun k => (s.reqCaller, .ok (.acquired (BitVec.ofNat 8 (k + 1)) (s.nextTicket + k))))
  reserved : ∀ m : Mark, u.poolAt m ≠ none ↔ m ≠ 0#8 ∧ m.toNat ≤ n

namespace AfterAcquires

variable {n : Nat} {u : State}

theorem zero (hs : s.sess = .isOpen) (hfree : ∀ m, s.poolAt m = none) : AfterAcquires s 0 s where
  sess := hs
  reqCaller := rfl
  nextTicket := rfl
  completions := by simp
  reserved m := by
    rw [mark_ne_zero_iff]
    exact iff_of_false (not_not.2 (hfree m)) (by omega)

theorem lowestFree_next (h : AfterAcquires s n u) (hn : n < 255) : lowestFree u (BitVec.ofNat 8 (n + 1)) := by
  have hval : (BitVec.ofNat 8 (n + 1)).toNat = n + 1 := mark_ofNat_toNat (by omega)
  refine ⟨(mark_ne_zero_iff _).2 (by omega), ?_, fun m hm hlt => (h.reserved m).2 ⟨hm, by omega⟩⟩
  exact not_not.1 ((h.reserved _).not.2 fun ⟨_, hle⟩ => by omega)

/-- The next ACQUIRE takes the next mark. -/
theorem succ (h : AfterAcquires s n u) (hn : n < 255) :
    ∃ v, exec .acquire u = .next v ∧ AfterAcquires s (n + 1) v := by
  refine ⟨_, exec_acquire_of_lowestFree h.sess (h.lowestFree_next hn), h.sess, h.reqCaller, ?_, ?_, fun m => ?_⟩
  · exact congrArg (· + 1) h.nextTicket
  · rw [List.range_succ, List.map_append, ← List.append_assoc, ← h.completions, List.map_singleton, ← h.reqCaller,
      ← h.nextTicket]
    rfl
  · refine State.reserve_poolAt_ne_none.trans ?_
    rw [h.reserved m, mark_ne_zero_iff, BitVec.toNat_eq, mark_ofNat_toNat (by omega)]
    omega

theorem allReserved_of_all (h : AfterAcquires s 255 u) : allReserved u :=
  fun m hm => (h.reserved m).2 ⟨hm, Nat.le_of_lt_succ m.isLt⟩

end AfterAcquires

theorem execTimes_acquire (hs : s.sess = .isOpen) (hfree : ∀ m, s.poolAt m = none) (n : Nat) (hn : n ≤ 255) :
    ∃ u, execTimes .acquire n s = .next u ∧ AfterAcquires s n u := by
  induction n with
  | zero => exact ⟨s, rfl, .zero hs hfree⟩
  | succ n ih =>
    obtain ⟨u, hu, hafter⟩ := ih (Nat.le_of_succ_le hn)
    rw [execTimes_succ hu]
    exact hafter.succ hn

end Requests

/-! ## The statements -/

/-- Settles O21: the pool after `n` ACQUIREs is `AfterAcquires`, by induction on `n`; after 255 of them, and after the one
ACQUIRE of the only free mark, every mark is reserved. -/
theorem poolCapacity : Obligations.PoolCapacity := by
  refine ⟨fun s hs hfree => ⟨fun n hn => ?_, ?_⟩, fun s m hs hm hfree hothers => ?_⟩
  · obtain ⟨u, hu, hafter⟩ := execTimes_acquire hs hfree n hn
    exact ⟨u, hu, hafter.completions, hafter.reserved⟩
  · obtain ⟨u, hu, hafter⟩ := execTimes_acquire hs hfree 255 le_rfl
    exact ⟨u, hu, exec_acquire_of_allReserved hafter.sess hafter.allReserved_of_all⟩
  · have hlow : lowestFree s m :=
      ⟨hm, hfree, fun m' hm' hlt => hothers m' hm' fun heq => lt_irrefl _ (heq ▸ hlt)⟩
    have hfull : allReserved (s.reserve m) := allReserved_reserve hothers
    exact ⟨_, exec_acquire_of_lowestFree hs hlow, rfl, exec_acquire_of_allReserved hs hfull⟩

/-- Settles O20: the three answers of ACQUIRE, the third with the reads of the pool and the slots after a reservation. -/
theorem acquireTakesTheLowestFreeMark : Obligations.AcquireTakesTheLowestFreeMark := by
  intro s
  refine ⟨fun r => exec_acquire_of_ended, exec_acquire_of_allReserved, fun m hs hlow => ?_⟩
  exact ⟨_, exec_acquire_of_lowestFree hs hlow, rfl, s.reserve_poolAt m, s.reserve_slotAt m⟩

/-- Settles O22: the two answers of RELEASE, the first with the reads of the pool and the slots after it. -/
theorem releaseDeliversToTheHolder : Obligations.ReleaseDeliversToTheHolder := by
  refine ⟨fun s m resp t hm => ?_, fun s m resp hm => exec_release_of_free hm resp⟩
  exact ⟨_, exec_release_of_held hm resp, rfl, fun m' => s.poolAt_setPool m m' none,
    fun k => (s.setPool m none).slotAt_setSlot t k (.done resp)⟩

/-- Settles O25: what fixes the answer of each of the three is the code, the mark and the slot, and no update of theirs
touches `SESS`; for ACQUIRE, `CLOSING` and `CLOSED` are the two statuses that have ended. -/
theorem poolRequestsRunInEverySession : Obligations.PoolRequestsRunInEverySession := by
  refine ⟨?_, fun s r hs => exec_acquire_of_ended (SessionStatus.ended_eq_some_iff.2 hs)⟩
  rintro i s u x (⟨m, resp, rfl⟩ | ⟨m, t, code, rfl⟩ | ⟨t, rfl⟩) h
  · exact exec_release_setSess x h
  · exact exec_abandon_setSess x h
  · exact exec_awaitSlot_setSess x h

end Sys2Proof.Machine
end

section
/-! The command encoders (43_command_encoder.md R200 to R205). First the bytes of each payload and how many they are,
then when the framer and START reject an operand as too long, then the two statements. -/

namespace Sys2Proof

/-- Byte `k` of an address, counted from the low end. -/
theorem extractLsb'_byte (a : Addr64) (k : Nat) :
    a.extractLsb' (8 * k) 8 = BitVec.ofNat 8 (a.toNat / 256 ^ k) := by
  apply BitVec.eq_of_toNat_eq
  simp [BitVec.extractLsb'_toNat, Nat.shiftRight_eq_div_pow, pow_mul]

end Sys2Proof

namespace Sys2Proof.Machine

/-! ## The bytes of the payloads -/

/-- The eight address bytes are the base-256 digits of the address, the highest first (R12). -/
theorem be64bytes_eq_be64Digits (a : Addr64) : be64bytes a = be64Digits a := by
  have hdigits : be64Digits a = [7, 6, 5, 4, 3, 2, 1, 0].map fun k => a.extractLsb' (8 * k) 8 := by
    simp only [extractLsb'_byte]
    rfl
  rw [hdigits]
  rfl

theorem encodeAtOp_eq (mn : Mnemonic) (param : Option Bytes) (mark : Mark) (queued : Bool) :
    encodeAtOp mn param mark queued =
      [if queued then 0x09#8 else 0x08#8, mark, mn.c0, mn.c1] ++ param.getD [] := rfl

theorem encodeRemoteAtOp_eq (mn : Mnemonic) (param : Option Bytes) (mark : Mark) (dest : Addr64) (options : Byte) :
    encodeRemoteAtOp mn param mark dest options =
      [0x17#8, mark] ++ be64Digits dest ++ [0xFF#8, 0xFE#8, options, mn.c0, mn.c1] ++ param.getD [] := by
  rw [← be64bytes_eq_be64Digits]
  rfl

theorem encodeTxOp_eq (mark : Mark) (dest : Addr64) (radius options : Byte) (data : Bytes) :
    encodeTxOp mark dest radius options data =
      [0x10#8, mark] ++ be64Digits dest ++ [0xFF#8, 0xFE#8, radius, options] ++ data := by
  rw [← be64bytes_eq_be64Digits]
  rfl

/-! ## The lengths of the payloads -/

@[simp] theorem encodeAtOp_length (mn : Mnemonic) (param : Option Bytes) (mark : Mark) (queued : Bool) :
    (encodeAtOp mn param mark queued).length = (paramBytes param).length + 4 := rfl

@[simp] theorem encodeRemoteAtOp_length (mn : Mnemonic) (param : Option Bytes) (mark : Mark) (dest : Addr64)
    (options : Byte) :
    (encodeRemoteAtOp mn param mark dest options).length = (paramBytes param).length + 15 := rfl

@[simp] theorem encodeTxOp_length (mark : Mark) (dest : Addr64) (radius options : Byte) (data : Bytes) :
    (encodeTxOp mark dest radius options data).length = data.length + 14 := rfl

/-! ## Operands that are too long -/

/-- ENCODE_FRAME raises `FrameTooLarge` exactly for a payload that does not fit the length field (R121). -/
theorem exists_frameTooLarge_iff {p : Bytes} :
    (∃ n, encodeFrameOp p = .error (.frameTooLarge n)) ↔ 65535 < p.length := by
  rw [encodeFrameOp_eq]
  split
  · next h => exact iff_of_true ⟨_, rfl⟩ h
  · next h => exact iff_of_false (fun ⟨_, hn⟩ => nomatch hn) h

/-- START answers an oversized operand before ACQUIRE (R270, R314). -/
theorem startCall_of_oversize {s : State} {op : Call} (hs : s.sess = .isOpen) (h : callLimit op < callSize op) :
    startCall op s = answered s (.err (.payloadTooLarge (callSize op))) := by
  simp only [startCall, hs, SessionStatus.ended, if_pos h]
  rfl

/-! ## The requests -/

theorem exec_encodeAt (mn : Mnemonic) (param : Option Bytes) (mark : Mark) (queued : Bool) (s : State) :
    exec (.encodeAt mn param mark queued) s =
      .next (answered s (.ok (.bytes (encodeAtOp mn param mark queued)))) := rfl

theorem exec_encodeRemoteAt (mn : Mnemonic) (param : Option Bytes) (mark : Mark) (dest : Addr64) (options : Byte)
    (s : State) : exec (.encodeRemoteAt mn param mark dest options) s =
      .next (answered s (.ok (.bytes (encodeRemoteAtOp mn param mark dest options)))) := rfl

theorem exec_encodeTx (mark : Mark) (dest : Addr64) (radius options : Byte) (data : Bytes) (s : State) :
    exec (.encodeTx mark dest radius options data) s =
      .next (answered s (.ok (.bytes (encodeTxOp mark dest radius options data)))) := rfl

theorem exec_write (data : Bytes) (s : State) : exec (.write data) s = .next (startCall (.write data) s) := rfl

theorem exec_atCommand (mn : Mnemonic) (param : Option Bytes) (queued : Bool) (s : State) :
    exec (.atCommand mn param queued) s = .next (startCall (.atCommand mn param queued) s) := rfl

theorem exec_remoteAtCommand (dest : Addr64) (options : Byte) (mn : Mnemonic) (param : Option Bytes) (s : State) :
    exec (.remoteAtCommand dest options mn param) s = .next (startCall (.remoteAtCommand dest options mn param) s) :=
  rfl

/-! ## The statements -/

/-- Settles O27: the limits of the framer are 65535 less the header of each payload, and those of START are the same
three numbers. -/
theorem encoderLengthLimits : Obligations.EncoderLengthLimits := by
  refine ⟨fun mn b mark queued => ?_, fun mn b mark dest options => ?_, fun mark dest radius options data => ?_,
    fun s data hs h => ?_, fun s mn b queued hs h => ?_, fun s dest options mn b hs h => ?_⟩
  · rw [exists_frameTooLarge_iff, encodeAtOp_length, paramBytes, Option.getD_some]
    omega
  · rw [exists_frameTooLarge_iff, encodeRemoteAtOp_length, paramBytes, Option.getD_some]
    omega
  · rw [exists_frameTooLarge_iff, encodeTxOp_length]
    omega
  · rw [exec_write]
    exact congrArg _ (startCall_of_oversize hs h)
  · rw [exec_atCommand]
    exact congrArg _ (startCall_of_oversize hs h)
  · rw [exec_remoteAtCommand]
    exact congrArg _ (startCall_of_oversize hs h)

/-- Settles O26: each encoder answers with its payload, whose address field is written in digits. -/
theorem commandEncodersBuildTheirPayloads : Obligations.CommandEncodersBuildTheirPayloads := by
  refine ⟨fun mn param mark queued s => ?_, fun mn param mark dest options s => ?_,
    fun mark dest radius options data s => ?_⟩
  · rw [exec_encodeAt, encodeAtOp_eq]
  · rw [exec_encodeRemoteAt, encodeRemoteAtOp_eq]
  · rw [exec_encodeTx, encodeTxOp_eq]

end Sys2Proof.Machine
end

section
/-! The decoders (44_decoders.md R220 to R227). First what the fields and the checks of a decoder read, then what each
decoder can answer, then the five statements. -/

namespace Sys2Proof.Machine

/-! ## The fields -/

/-- The fold of R12 `be64` as a sum: of `n` bytes the one at place `j` weighs `256 ^ (n - 1 - j)`. -/
theorem beNat_map_range (f : Nat → Byte) (n : Nat) :
    beNat ((List.range n).map f) = ((List.range n).map fun j => (f j).toNat * 256 ^ (n - 1 - j)).sum := by
  induction n with
  | zero => rfl
  | succ n ih =>
    have hshift : ((List.range n).map fun j => (f j).toNat * 256 ^ (n - j)).sum =
        beNat ((List.range n).map f) * 256 := by
      rw [ih, ← List.sum_map_mul_right]
      refine congrArg List.sum (List.map_congr_left fun j hj => ?_)
      have hlt : j < n := List.mem_range.1 hj
      rw [mul_assoc, ← pow_succ, show n - 1 - j + 1 = n - j by omega]
    simp only [List.range_succ, List.map_append, List.map_singleton, List.sum_append, List.sum_singleton,
      Nat.add_sub_cancel, Nat.sub_self, pow_zero, mul_one, hshift]
    simp only [beNat, List.foldl_append, List.foldl_cons, List.foldl_nil]

theorem addrAt_eq_be64Sum (p : Bytes) (k : Nat) : addrAt p k = BitVec.ofNat 64 (be64Sum p k) :=
  congrArg (BitVec.ofNat 64) (beNat_map_range (fun j => byteAt p (k + j)) 8)

theorem halfAt_eq (p : Bytes) (k : Nat) :
    halfAt p k = BitVec.ofNat 16 ((byteAt p k).toNat * 256 + (byteAt p (k + 1)).toNat) := rfl

/-- `0x01` and every code without a row of its own are of one class (R93). -/
theorem atClass_eq (b : Byte) : atClass b = if b = 0x00#8 then .ok else if b = 0x02#8 then .invalidCommand
    else if b = 0x03#8 then .invalidParam else .error := by
  by_cases h : b = 0x01#8
  · subst h
    rfl
  · simp only [atClass, if_neg h]

theorem txClass_eq (b : Byte) : txClass b = if b = 0x00#8 then .success else if b = 0x01#8 then .noACK
    else if b = 0x02#8 then .ccaFailure else .purgedOrOther := rfl

theorem ackFlag_eq (b : Byte) : ackFlag b = decide (b.toNat % 2 = 1) := Nat.testBit_zero _

theorem broadcastFlag_eq (b : Byte) : broadcastFlag b = decide (b.toNat / 2 % 2 = 1) :=
  Nat.testBit_eq_decide_div_mod_eq

/-! ## The checks -/

/-- The type check of R222, R224 and R226 fails for another first byte and for no byte at all. -/
theorem hasType_eq_false_iff {p : Bytes} {type : Byte} : hasType p type = false ↔ p.head? ≠ some type := by
  cases p with
  | nil => simp [hasType]
  | cons b r => simp [hasType, byteAt]

/-- A decoder with one check raises the error of that check and no other. -/
theorem error_of_check {α : Type} {c : Prop} [Decidable c] {e e' : Err} {a : α}
    (h : (if c then Except.error e else .ok a) = .error e') : e' = e := by
  split at h
  · exact (Except.error.inj h).symm
  · cases h

/-- A decoder with two checks raises the errors of those checks and no other. -/
theorem error_of_checks {α : Type} {c d : Prop} [Decidable c] [Decidable d] {e₁ e₂ e : Err} {a : α}
    (h : (if c then Except.error e₁ else if d then .error e₂ else .ok a) = .error e) : e = e₁ ∨ e = e₂ := by
  split at h
  · exact .inl (Except.error.inj h).symm
  · exact .inr (error_of_check h)

theorem decodeAtRespOp_error {p : Bytes} {e : Err} (h : decodeAtRespOp p = .error e) : e = .decodeShort p.length :=
  error_of_check h

theorem decodeRemoteAtRespOp_error {p : Bytes} {e : Err} (h : decodeRemoteAtRespOp p = .error e) :
    e = .decodeWrongType ∨ e = .decodeShort p.length := error_of_checks h

theorem decodeRxOp_error {p : Bytes} {e : Err} (h : decodeRxOp p = .error e) :
    e = .decodeWrongType ∨ e = .decodeShort p.length := error_of_checks h

theorem decodeTxStatusOp_error {p : Bytes} {e : Err} (h : decodeTxStatusOp p = .error e) :
    e = .decodeWrongType ∨ e = .decodeWrongLength p.length := error_of_checks h

/-- The answer to a request whose decoder has one check. -/
theorem State.finishWith_check {α : Type} {c : Prop} [Decidable c] (s : State) (mk : α → Result) (e : Err) (a : α) :
    s.finishWith mk (if c then Except.error e else .ok a) = answered s (if c then .err e else .ok (mk a)) := by
  split
  · exact s.finishWith_error mk e
  · exact s.finishWith_ok mk a

/-- The answer to a request whose decoder has two checks. -/
theorem State.finishWith_checks {α : Type} {c d : Prop} [Decidable c] [Decidable d] (s : State) (mk : α → Result)
    (e₁ e₂ : Err) (a : α) : s.finishWith mk (if c then Except.error e₁ else if d then .error e₂ else .ok a) =
      answered s (if c then .err e₁ else if d then .err e₂ else .ok (mk a)) := by
  split
  · exact s.finishWith_error mk e₁
  · exact s.finishWith_check mk e₂ a

/-! ## A built payload -/

@[simp] theorem atRespPayload_length (mark : Mark) (mn : Mnemonic) (status : Byte) (data : Bytes) :
    (atRespPayload mark mn status data).length = data.length + 5 := rfl

/-- The law of R227: the layout of R88 is what DECODE_AT_RESP reads. -/
theorem decodeAtRespOp_atRespPayload (mark : Mark) (mn : Mnemonic) (status : Byte) (data : Bytes) :
    decodeAtRespOp (atRespPayload mark mn status data) =
      .ok { mark := mark, mnemonic := mn, statusCode := status, status := atClass status, data := data } :=
  if_neg (by simp)

/-! ## The requests -/

theorem exec_decodeAtResp (p : Bytes) (s : State) :
    exec (.decodeAtResp p) s = .next (s.finishWith .atResp (decodeAtRespOp p)) := rfl

theorem exec_decodeRemoteAtResp (p : Bytes) (s : State) :
    exec (.decodeRemoteAtResp p) s = .next (s.finishWith .remoteAtResp (decodeRemoteAtRespOp p)) := rfl

theorem exec_decodeRx (p : Bytes) (s : State) :
    exec (.decodeRx p) s = .next (s.finishWith .rx (decodeRxOp p)) := rfl

theorem exec_decodeTxStatus (p : Bytes) (s : State) :
    exec (.decodeTxStatus p) s = .next (s.finishWith .txStatus (decodeTxStatusOp p)) := rfl

/-! ## The statements -/

/-- Settles O32: the payload of the first law is `atRespPayload`, and each decoder raises the errors of its own
checks. -/
theorem decoderLaws : Obligations.DecoderLaws := by
  refine ⟨fun mark mn st d s => ?_, fun p e h => ?_⟩
  · have hbuilt : [0x88#8, mark] ++ mn.bytes ++ [st] ++ d = atRespPayload mark mn st d := rfl
    rw [hbuilt, exec_decodeAtResp, decodeAtRespOp_atRespPayload, State.finishWith_ok]
  · obtain hat | hremote | hrx | htx := h
    · exact .inr (.inl ⟨_, decodeAtRespOp_error hat⟩)
    · exact (decodeRemoteAtRespOp_error hremote).imp_right fun he => .inl ⟨_, he⟩
    · exact (decodeRxOp_error hrx).imp_right fun he => .inl ⟨_, he⟩
    · exact (decodeTxStatusOp_error htx).imp_right fun he => .inr ⟨_, he⟩

/-- Settles O28: one check, of the length, and then the fields; the type byte is never read. -/
theorem atResponseDecoder : Obligations.AtResponseDecoder := by
  intro p s
  rw [exec_decodeAtResp, decodeAtRespOp, State.finishWith_check, mnemonicAt, atClass_eq]

/-- Settles O29: the type, then the length, then the fields. -/
theorem remoteResponseDecoder : Obligations.RemoteResponseDecoder := by
  intro p s
  rw [exec_decodeRemoteAtResp, decodeRemoteAtRespOp, State.finishWith_checks, addrAt_eq_be64Sum, halfAt_eq, mnemonicAt,
    atClass_eq]
  simp only [hasType_eq_false_iff]

/-- Settles O30: the type, then the length, then the fields, of which the two flags are bits of the options byte. -/
theorem rxIndicatorDecoder : Obligations.RxIndicatorDecoder := by
  intro p s
  rw [exec_decodeRx, decodeRxOp, State.finishWith_checks, addrAt_eq_be64Sum, halfAt_eq, ackFlag_eq, broadcastFlag_eq]
  simp only [hasType_eq_false_iff]

/-- Settles O31: the type, then the exact length, then the fields. -/
theorem txStatusDecoder : Obligations.TxStatusDecoder := by
  intro p s
  rw [exec_decodeTxStatus, decodeTxStatusOp, State.finishWith_checks, halfAt_eq, txClass_eq, routedFlag]
  simp only [hasType_eq_false_iff]

end Sys2Proof.Machine
end

section
/-! The router (45_router.md R250, R251, R255). First the arm that a payload is sent to, then what the RX Indicator
arm does with a payload that its decoder refuses or reads, then the two statements. -/

namespace Sys2Proof.Machine

/-! ## The arm of a payload -/

theorem dispatchPayload_of_rx {p : Bytes} (h : p.head? = some 0x90#8) (s : State) :
    dispatchPayload p s = routeRx p s := by
  obtain ⟨r, rfl⟩ := List.head?_eq_some_iff.1 h
  simp only [dispatchPayload, ↓reduceIte]

/-- The empty payload falls through to the unrecognized arm too (R250, R255). -/
theorem dispatchPayload_of_unrecognized {p : Bytes} (h88 : p.head? ≠ some 0x88#8) (h8B : p.head? ≠ some 0x8B#8)
    (h90 : p.head? ≠ some 0x90#8) (h97 : p.head? ≠ some 0x97#8) (s : State) :
    dispatchPayload p s = routeUnknown p.head? s := by
  cases p with
  | nil => rfl
  | cons type r =>
    simp only [List.head?_cons, ne_eq, Option.some.injEq] at h88 h8B h90 h97
    simp only [dispatchPayload, if_neg h90, if_neg h88, if_neg h8B, if_neg h97, List.head?_cons]

/-! ## The RX Indicator arm -/

@[simp] theorem rxPayload_length (a : Addr64) (a16 : Half) (options : Byte) (d : Bytes) :
    (rxPayload a a16 options d).length = d.length + 12 := rfl

theorem decodeRxOp_of_short {p : Bytes} (h : p.head? = some 0x90#8) (hlen : p.length < 12) :
    decodeRxOp p = .error (.decodeShort p.length) := by
  have htype : hasType p 0x90#8 ≠ false := fun hf => hasType_eq_false_iff.1 hf h
  rw [decodeRxOp, if_neg htype, if_pos hlen]

/-- The layout of R90 is what DECODE_RX reads (R224). -/
theorem decodeRxOp_rxPayload (a : Addr64) (a16 : Half) (options : Byte) (d : Bytes) :
    decodeRxOp (rxPayload a a16 options d) =
      .ok { source := a, src16 := a16, ack := ackFlag options, broadcast := broadcastFlag options, options := options,
            payload := d } := by
  have hlen : ¬ (rxPayload a a16 options d).length < 12 := by simp
  have haddr : addrAt (rxPayload a a16 options d) 1 = a := addrAt_be64bytes a (be16bytes a16 ++ options :: d)
  have hhalf : halfAt (rxPayload a a16 options d) 9 = a16 := halfAt_be16bytes a16 (options :: d)
  rw [decodeRxOp, if_neg (by simp [hasType, rxPayload]), if_neg hlen, haddr, hhalf]
  rfl

theorem routeRx_of_error {p : Bytes} {e : Err} (h : decodeRxOp p = .error e) (s : State) :
    routeRx p s = s.emit (.decodeFailed 0x90#8 e) := by
  simp only [routeRx, h]

theorem routeRx_of_unbounded {p : Bytes} {r : RxDataFrame} {s : State} (h : decodeRxOp p = .ok r)
    (hcap : s.cfg.rdbufCap = none) : routeRx p s = { s with rdbuf := s.rdbuf ++ r.payload } := by
  simp only [routeRx, h, hcap]

theorem routeRx_of_bounded {p : Bytes} {r : RxDataFrame} {s : State} {n : Nat} (h : decodeRxOp p = .ok r)
    (hcap : s.cfg.rdbufCap = some n) :
    routeRx p s = if n < s.rdbuf.length + r.payload.length then s.emit (.rxOverflow r.payload.length)
      else { s with rdbuf := s.rdbuf ++ r.payload } := by
  simp only [routeRx, h, hcap]

/-! ## The frames -/

theorem exec_rxIndicatorFrame (a : Addr64) (a16 : Half) (options : Byte) (d : Bytes) (s : State) :
    exec (.rxIndicatorFrame a a16 options d) s = .next (routeRx (rxPayload a a16 options d) s) := rfl

theorem exec_atCommandFrame_received (m : Mark) (mn : Mnemonic) (b : Bytes) (s : State) :
    exec (.atCommandFrame .received m mn b) s = .next (routeUnknown (some 0x08#8) s) := rfl

theorem exec_queuedAtCommandFrame_received (m : Mark) (mn : Mnemonic) (b : Bytes) (s : State) :
    exec (.queuedAtCommandFrame .received m mn b) s = .next (routeUnknown (some 0x09#8) s) := rfl

theorem exec_txRequestFrame_received (m : Mark) (a : Addr64) (a16 : Half) (r o : Byte) (b : Bytes) (s : State) :
    exec (.txRequestFrame .received m a a16 r o b) s = .next (routeUnknown (some 0x10#8) s) := rfl

theorem exec_remoteAtCommandFrame_received (m : Mark) (a : Addr64) (a16 : Half) (o : Byte) (mn : Mnemonic) (b : Bytes)
    (s : State) :
    exec (.remoteAtCommandFrame .received m a a16 o mn b) s = .next (routeUnknown (some 0x17#8) s) := rfl

theorem routeUnknown_eq (t : Option Byte) (s : State) :
    routeUnknown t s = { s with diag := s.diag ++ [.unknownType t] } := rfl

/-! ## The statements -/

/-- Settles O35: the decoder reads the data of a frame back, so the capacity alone decides between append and drop; a
payload below the header length has no data to read. -/
theorem rxIndicatorFillsTheReadBuffer : Obligations.RxIndicatorFillsTheReadBuffer := by
  refine ⟨fun a a16 options d s hcap => ?_, fun a a16 options d s n hcap => ?_, fun p s h hlen => ?_⟩
  · rw [exec_rxIndicatorFrame, routeRx_of_unbounded (decodeRxOp_rxPayload a a16 options d) hcap]
  · rw [exec_rxIndicatorFrame, routeRx_of_bounded (decodeRxOp_rxPayload a a16 options d) hcap, State.emit]
  · rw [dispatchPayload_of_rx h, routeRx_of_error (decodeRxOp_of_short h hlen), State.emit]

/-- Settles O36: every payload outside the four consumed types goes to the unrecognized arm, and so does each produced
frame on the received side. -/
theorem unrecognizedPayloadsAreDropped : Obligations.UnrecognizedPayloadsAreDropped := by
  refine ⟨fun p s h88 h8B h90 h97 => ?_, fun m mn b s => ⟨?_, ?_⟩, fun m a a16 r o mn b s => ⟨?_, ?_⟩⟩
  · rw [dispatchPayload_of_unrecognized h88 h8B h90 h97, routeUnknown_eq]
  · rw [exec_atCommandFrame_received, routeUnknown_eq]
  · rw [exec_queuedAtCommandFrame_received, routeUnknown_eq]
  · rw [exec_txRequestFrame_received, routeUnknown_eq]
  · rw [exec_remoteAtCommandFrame_received, routeUnknown_eq]

end Sys2Proof.Machine
end

section
/-! The completion checks and CLOSE (46_session.md R272, R277, R282, R292). First what a decoder answers on a payload
of its own type and what each completion check answers, then CLOSE in an open and in an ended session, then the two
statements. -/

namespace Sys2Proof.Machine

/-! ## The decoders behind a type check -/

theorem hasType_ne_false_of_head? {p : Bytes} {type : Byte} (h : p.head? = some type) : hasType p type ≠ false :=
  fun hf => hasType_eq_false_iff.1 hf h

/-- On a payload of type `0x97` only the length check of R222 is left. -/
theorem decodeRemoteAtRespOp_of_type {p : Bytes} (h : p.head? = some 0x97#8) :
    decodeRemoteAtRespOp p = if p.length < 15 then .error (.decodeShort p.length)
      else .ok { mark := byteAt p 1, source := addrAt p 2, src16 := halfAt p 10, mnemonic := mnemonicAt p 12,
                 statusCode := byteAt p 14, status := atClass (byteAt p 14), data := p.drop 15 } :=
  if_neg (hasType_ne_false_of_head? h)

/-- On a payload of type `0x8B` only the length check of R226 is left. -/
theorem decodeTxStatusOp_of_type {p : Bytes} (h : p.head? = some 0x8B#8) :
    decodeTxStatusOp p = if p.length ≠ 7 then .error (.decodeWrongLength p.length)
      else .ok { mark := byteAt p 1, dest16 := halfAt p 2, retryCount := byteAt p 4, statusCode := byteAt p 5,
                 status := txClass (byteAt p 5), routed := routedFlag (byteAt p 6) } :=
  if_neg (hasType_ne_false_of_head? h)

/-! ## The completion checks -/

/-- FINISH_WRITE in the order of R272: the type, the length, the delivery status. -/
theorem finishWrite_eq (r data : Bytes) : finishWrite r data =
    if r.head? ≠ some 0x8B#8 then .err (.responseTypeMismatch r.head?)
    else if r.length ≠ 7 then .err (.decodeWrongLength r.length)
    else if byteAt r 5 ≠ 0x00#8 then .err (.deliveryFailed (byteAt r 5) (txClass (byteAt r 5)))
    else .ok (.count data.length) := by
  by_cases htype : r.head? = some 0x8B#8
  · rw [finishWrite, if_neg (hasType_ne_false_of_head? htype), if_neg (not_not.2 htype),
      decodeTxStatusOp_of_type htype]
    by_cases hlen : r.length ≠ 7
    · rw [if_pos hlen, if_pos hlen]
    · rw [if_neg hlen, if_neg hlen]
  · rw [finishWrite, if_pos (hasType_eq_false_iff.2 htype), if_pos htype]

/-- FINISH_AT in the order of R277: the type, the length, the status. -/
theorem finishAt_eq (r : Bytes) : finishAt r =
    if r.head? ≠ some 0x88#8 then .err (.responseTypeMismatch r.head?)
    else if r.length < 5 then .err (.decodeShort r.length)
    else if byteAt r 4 = 0x00#8 then .ok (.bytes (r.drop 5))
    else .err (.remoteRejected (byteAt r 4) (atClass (byteAt r 4))) := by
  by_cases htype : r.head? = some 0x88#8
  · rw [finishAt, if_neg (hasType_ne_false_of_head? htype), if_neg (not_not.2 htype), decodeAtRespOp]
    by_cases hlen : r.length < 5
    · rw [if_pos hlen, if_pos hlen]
    · rw [if_neg hlen, if_neg hlen]
  · rw [finishAt, if_pos (hasType_eq_false_iff.2 htype), if_pos htype]

/-- FINISH_REMOTE_AT in the order of R282: the type, the length, the status. -/
theorem finishRemoteAt_eq (r : Bytes) : finishRemoteAt r =
    if r.head? ≠ some 0x97#8 then .err (.responseTypeMismatch r.head?)
    else if r.length < 15 then .err (.decodeShort r.length)
    else if byteAt r 14 = 0x00#8 then .ok (.bytes (r.drop 15))
    else .err (.remoteRejected (byteAt r 14) (atClass (byteAt r 14))) := by
  by_cases htype : r.head? = some 0x97#8
  · rw [finishRemoteAt, if_neg (hasType_ne_false_of_head? htype), if_neg (not_not.2 htype),
      decodeRemoteAtRespOp_of_type htype]
    by_cases hlen : r.length < 15
    · rw [if_pos hlen, if_pos hlen]
    · rw [if_neg hlen, if_neg hlen]
  · rw [finishRemoteAt, if_pos (hasType_eq_false_iff.2 htype), if_pos htype]

theorem finishCall_write (data r : Bytes) : finishCall (.write data) (.ok r) = finishWrite r data := rfl

theorem finishCall_atCommand (mn : Mnemonic) (param : Option Bytes) (queued : Bool) (r : Bytes) :
    finishCall (.atCommand mn param queued) (.ok r) = finishAt r := rfl

theorem finishCall_remoteAtCommand (dest : Addr64) (options : Byte) (mn : Mnemonic) (param : Option Bytes)
    (r : Bytes) : finishCall (.remoteAtCommand dest options mn param) (.ok r) = finishRemoteAt r := rfl

theorem finishCall_error (op : Call) (e : Err) : finishCall op (.error e) = .err e := rfl

/-! ## CLOSE -/

theorem exec_close (s : State) : exec .close s = execClose s := rfl

theorem SessionStatus.ended_eq_none_iff {x : SessionStatus} : x.ended = none ↔ x = .isOpen := by
  cases x <;> simp [SessionStatus.ended]

/-- The entry into the fatal path of R316. -/
theorem enterFatal_eq (r : Reason) (s : State) :
    enterFatal r s = { s with sess := .closing r, closeCtl := true, diag := s.diag ++ [.transportEnded r] } := rfl

theorem exec_close_of_open {s : State} (h : s.sess = .isOpen) :
    exec .close s = .next (answered (enterFatal .localClose s) (.ok .unit)) := by
  rw [exec_close, execClose, SessionStatus.ended_eq_none_iff.2 h]
  rfl

theorem exec_close_of_ended {s : State} {r : Reason} (h : s.sess.ended = some r) :
    exec .close s = .next (answered s (.err (.transportClosed r))) := by
  rw [exec_close, execClose, h]
  rfl

/-! ## The statements -/

/-- Settles O40: each call goes to its own completion check, and an error of the wait is the call's error. -/
theorem completionChecks : Obligations.CompletionChecks := by
  refine ⟨fun data r => ?_, fun mn param queued r => ?_, fun dest options mn param r => ?_, finishCall_error⟩
  · rw [finishCall_write, finishWrite_eq]
  · rw [finishCall_atCommand, finishAt_eq]
  · rw [finishCall_remoteAtCommand, finishRemoteAt_eq]

/-- Settles O43: an open session enters the fatal path; `CLOSING` and `CLOSED` are the two statuses that have
ended. -/
theorem closeEntersTheFatalPath : Obligations.CloseEntersTheFatalPath := by
  refine ⟨fun s hs => ?_, fun s r hs => exec_close_of_ended (SessionStatus.ended_eq_some_iff.2 hs)⟩
  rw [exec_close_of_open hs, enterFatal_eq]

end Sys2Proof.Machine
end

section
/-! Encoding and decoding (30_encoding.md R82 to R105). First the fields of a payload as bytes, then each request record
and each layout read back, then the fields of a payload put together again, then the statements on the two directions
and on the router, which reads the same layouts (45_router.md R250). -/

namespace Sys2Proof

/-! ## The fields of a payload as bytes -/

theorem be16bytes_halfAt (p : Bytes) (k : Nat) : be16bytes (halfAt p k) = [byteAt p k, byteAt p (k + 1)] := by
  have hhigh : (halfAt p k).extractLsb' 8 8 = byteAt p k := by
    apply BitVec.eq_of_toNat_eq
    simp [halfAt, be16, BitVec.extractLsb'_toNat, Nat.shiftRight_eq_div_pow]
    omega
  have hlow : (halfAt p k).extractLsb' 0 8 = byteAt p (k + 1) := by
    apply BitVec.eq_of_toNat_eq
    have := (byteAt p (k + 1)).isLt
    simp [halfAt, be16, BitVec.extractLsb'_toNat]
    omega
  rw [be16bytes, hhigh, hlow]

theorem be64bytes_addrAt (p : Bytes) (k : Nat) :
    be64bytes (addrAt p k) = [byteAt p k, byteAt p (k + 1), byteAt p (k + 2), byteAt p (k + 3), byteAt p (k + 4),
      byteAt p (k + 5), byteAt p (k + 6), byteAt p (k + 7)] := by
  simp only [be64bytes, List.cons.injEq, and_true, BitVec.toNat_eq]
  simp [addrAt, beNat, BitVec.extractLsb'_toNat, Nat.shiftRight_eq_div_pow]
  omega

/-- A sequence is its first `k` bytes and what follows them. -/
theorem map_byteAt_append_drop {p : Bytes} {k : Nat} (h : k ≤ p.length) :
    (List.range k).map (byteAt p) ++ p.drop k = p := by
  induction k with
  | zero => rfl
  | succ k ih =>
    have hk : k < p.length := h
    calc (List.range (k + 1)).map (byteAt p) ++ p.drop (k + 1)
        = (List.range k).map (byteAt p) ++ byteAt p k :: p.drop (k + 1) := by simp [List.range_succ]
      _ = (List.range k).map (byteAt p) ++ p.drop k := by rw [byteAt_of_lt hk, ← List.drop_eq_getElem_cons hk]
      _ = p := ih hk.le

/-! ## A sized or optional operand at the end of a record -/

@[simp] theorem takeNat_natBytes_end (n : Nat) : takeNat (natBytes n) = some (n, []) := by
  simpa using takeNat_natBytes n []

@[simp] theorem takeSized_sizedBytes_end (b : Bytes) : takeSized (sizedBytes b) = some (b, []) := by
  simpa using takeSized_sizedBytes b []

@[simp] theorem takeOptBytes_optBytes_end (p : Option Bytes) : takeOptBytes (optBytes p) = some (p, []) := by
  simpa using takeOptBytes_optBytes p []

/-! ## A request record is read back -/

theorem takeOneSized_sizedBytes (mk : Bytes → Instr) (b : Bytes) :
    takeOneSized mk (sizedBytes b) = some (mk b, []) := by
  simp [takeOneSized]

theorem takeOneNat_natBytes (mk : Nat → Instr) (n : Nat) : takeOneNat mk (natBytes n) = some (mk n, []) := by
  simp [takeOneNat]

theorem takeSyncStep_bytes (buf : Bytes) (atEnd : Bool) :
    takeSyncStep (sizedBytes buf ++ [boolByte atEnd]) = some (.syncStep buf atEnd, []) := by
  simp [takeSyncStep]

theorem takeRelease_bytes (mark : Mark) (resp : Bytes) :
    takeRelease (mark :: sizedBytes resp) = some (.release mark resp, []) := by
  simp [takeRelease]

theorem takeAbandon_bytes (mark : Mark) (ticket : Ticket) (code : Byte) :
    takeAbandon (mark :: (natBytes ticket ++ [code])) = some (.abandon mark ticket code, []) := by
  simp [takeAbandon]

theorem takeEncodeAt_bytes (mn : Mnemonic) (param : Option Bytes) (mark : Mark) (queued : Bool) :
    takeEncodeAt (mn.bytes ++ optBytes param ++ [mark, boolByte queued]) =
      some (.encodeAt mn param mark queued, []) := by
  simp [takeEncodeAt]

theorem takeEncodeRemoteAt_bytes (mn : Mnemonic) (param : Option Bytes) (mark : Mark) (dest : Addr64)
    (options : Byte) :
    takeEncodeRemoteAt (mn.bytes ++ optBytes param ++ [mark] ++ be64bytes dest ++ [options]) =
      some (.encodeRemoteAt mn param mark dest options, []) := by
  simp [takeEncodeRemoteAt]

theorem takeEncodeTx_bytes (mark : Mark) (dest : Addr64) (radius options : Byte) (data : Bytes) :
    takeEncodeTx (mark :: (be64bytes dest ++ [radius, options] ++ sizedBytes data)) =
      some (.encodeTx mark dest radius options data, []) := by
  simp [takeEncodeTx]

theorem takeAtCommand_bytes (mn : Mnemonic) (param : Option Bytes) (queued : Bool) :
    takeAtCommand (mn.bytes ++ optBytes param ++ [boolByte queued]) = some (.atCommand mn param queued, []) := by
  simp [takeAtCommand]

theorem takeRemoteAtCommand_bytes (dest : Addr64) (options : Byte) (mn : Mnemonic) (param : Option Bytes) :
    takeRemoteAtCommand (be64bytes dest ++ [options] ++ mn.bytes ++ optBytes param) =
      some (.remoteAtCommand dest options mn param, []) := by
  simp [takeRemoteAtCommand]

/-- Operands that are read with no byte left over are the instruction. -/
theorem finishOperands_of_read {x : Option (Instr × Bytes)} {i : Instr} (h : x = some (i, [])) (op : Nat) :
    finishOperands op x = .ok i := by
  rw [h]
  rfl

end Sys2Proof

namespace Sys2Proof.Machine

/-! ## A payload is read back -/

theorem decodeProduced_atPayload (side : Side) (mark : Mark) (mn : Mnemonic) (param : Bytes) :
    decodeProduced side 0x08#8 (atPayload 0x08#8 mark mn param) = .ok (.atCommandFrame side mark mn param) := by
  have hlen : ¬ (atPayload 0x08#8 mark mn param).length < 4 := by simp [atPayload]
  simp only [decodeProduced, if_neg hlen]
  rfl

theorem decodeProduced_queuedAtPayload (side : Side) (mark : Mark) (mn : Mnemonic) (param : Bytes) :
    decodeProduced side 0x09#8 (atPayload 0x09#8 mark mn param) = .ok (.queuedAtCommandFrame side mark mn param) := by
  have hlen : ¬ (atPayload 0x09#8 mark mn param).length < 4 := by simp [atPayload]
  simp only [decodeProduced, if_neg hlen]
  rfl

@[simp] theorem txPayload_length (mark : Mark) (a : Addr64) (h : Half) (radius options : Byte) (data : Bytes) :
    (txPayload mark a h radius options data).length = data.length + 14 := rfl

theorem decodeProduced_txPayload (side : Side) (mark : Mark) (a : Addr64) (h : Half) (radius options : Byte)
    (data : Bytes) : decodeProduced side 0x10#8 (txPayload mark a h radius options data) =
      .ok (.txRequestFrame side mark a h radius options data) := by
  have haddr : addrAt (txPayload mark a h radius options data) 2 = a :=
    addrAt_be64bytes a (be16bytes h ++ radius :: options :: data)
  have hhalf : halfAt (txPayload mark a h radius options data) 10 = h :=
    halfAt_be16bytes h (radius :: options :: data)
  have hlen : ¬ (txPayload mark a h radius options data).length < 14 := by simp
  simp only [decodeProduced, haddr, hhalf, if_neg hlen]
  rfl

@[simp] theorem remoteAtPayload_length (mark : Mark) (a : Addr64) (h : Half) (options : Byte) (mn : Mnemonic)
    (param : Bytes) : (remoteAtPayload mark a h options mn param).length = param.length + 15 := rfl

theorem decodeProduced_remoteAtPayload (side : Side) (mark : Mark) (a : Addr64) (h : Half) (options : Byte)
    (mn : Mnemonic) (param : Bytes) : decodeProduced side 0x17#8 (remoteAtPayload mark a h options mn param) =
      .ok (.remoteAtCommandFrame side mark a h options mn param) := by
  have haddr : addrAt (remoteAtPayload mark a h options mn param) 2 = a :=
    addrAt_be64bytes a (be16bytes h ++ options :: mn.bytes ++ param)
  have hhalf : halfAt (remoteAtPayload mark a h options mn param) 10 = h :=
    halfAt_be16bytes h (options :: mn.bytes ++ param)
  have hlen : ¬ (remoteAtPayload mark a h options mn param).length < 15 := by simp
  simp only [decodeProduced, haddr, hhalf, if_neg hlen]
  rfl

/-- The layout of R89 is what DECODE_TX_STATUS reads (R226). -/
theorem decodeTxStatusOp_txStatusPayload (mark : Mark) (h : Half) (retry delivery discovery : Byte) :
    decodeTxStatusOp (txStatusPayload mark h retry delivery discovery) =
      .ok { mark := mark, dest16 := h, retryCount := retry, statusCode := delivery, status := txClass delivery,
            routed := routedFlag discovery } := by
  have hhalf : halfAt (txStatusPayload mark h retry delivery discovery) 2 = h :=
    halfAt_be16bytes h [retry, delivery, discovery]
  rw [decodeTxStatusOp_of_type rfl, if_neg (by simp [txStatusPayload]), hhalf]
  rfl

@[simp] theorem remoteRespPayload_length (mark : Mark) (a : Addr64) (h : Half) (mn : Mnemonic) (status : Byte)
    (data : Bytes) : (remoteRespPayload mark a h mn status data).length = data.length + 15 := rfl

/-- The layout of R91 is what DECODE_REMOTE_AT_RESP reads (R222). -/
theorem decodeRemoteAtRespOp_remoteRespPayload (mark : Mark) (a : Addr64) (h : Half) (mn : Mnemonic) (status : Byte)
    (data : Bytes) : decodeRemoteAtRespOp (remoteRespPayload mark a h mn status data) =
      .ok { mark := mark, source := a, src16 := h, mnemonic := mn, statusCode := status, status := atClass status,
            data := data } := by
  have haddr : addrAt (remoteRespPayload mark a h mn status data) 2 = a :=
    addrAt_be64bytes a (be16bytes h ++ mn.bytes ++ status :: data)
  have hhalf : halfAt (remoteRespPayload mark a h mn status data) 10 = h :=
    halfAt_be16bytes h (mn.bytes ++ status :: data)
  rw [decodeRemoteAtRespOp_of_type rfl, if_neg (by simp), haddr, hhalf]
  rfl

/-! ## A payload that is read is its layout -/

/-- The fields that a decoder reads at fixed places, put together again, are the payload. -/
theorem atPayload_fields {p : Bytes} (hlen : 4 ≤ p.length) :
    atPayload (byteAt p 0) (byteAt p 1) (mnemonicAt p 2) (p.drop 4) = p := map_byteAt_append_drop hlen

theorem txPayload_fields {p : Bytes} (htype : byteAt p 0 = 0x10#8) (hlen : 14 ≤ p.length) :
    txPayload (byteAt p 1) (addrAt p 2) (halfAt p 10) (byteAt p 12) (byteAt p 13) (p.drop 14) = p := by
  rw [txPayload, be64bytes_addrAt, be16bytes_halfAt, ← htype]
  exact map_byteAt_append_drop hlen

theorem remoteAtPayload_fields {p : Bytes} (htype : byteAt p 0 = 0x17#8) (hlen : 15 ≤ p.length) :
    remoteAtPayload (byteAt p 1) (addrAt p 2) (halfAt p 10) (byteAt p 12) (mnemonicAt p 13) (p.drop 15) = p := by
  rw [remoteAtPayload, be64bytes_addrAt, be16bytes_halfAt, ← htype]
  exact map_byteAt_append_drop hlen

theorem atRespPayload_of_decode {p : Bytes} {x : ATCmdResponse} (htype : byteAt p 0 = 0x88#8)
    (h : decodeAtRespOp p = .ok x) : atRespPayload x.mark x.mnemonic x.statusCode x.data = p := by
  unfold decodeAtRespOp at h
  split at h
  · cases h
  · next hlen =>
    cases h
    rw [atRespPayload, ← htype]
    exact map_byteAt_append_drop (Nat.le_of_not_lt hlen)

theorem txStatusPayload_of_decode {p : Bytes} {x : TxStatusFrame} (htype : byteAt p 0 = 0x8B#8)
    (h : decodeTxStatusOp p = .ok x) :
    txStatusPayload x.mark x.dest16 x.retryCount x.statusCode (byteAt p 6) = p := by
  unfold decodeTxStatusOp at h
  split at h
  · cases h
  · split at h
    · cases h
    · next hlen =>
      have hlen7 : p.length = 7 := not_not.1 hlen
      have hend : p.drop 7 = [] := List.drop_of_length_le hlen7.le
      cases h
      rw [txStatusPayload, be16bytes_halfAt, ← htype]
      calc _ = (List.range 7).map (byteAt p) ++ p.drop 7 := by rw [hend]; rfl
        _ = p := map_byteAt_append_drop hlen7.ge

theorem rxPayload_of_decode {p : Bytes} {x : RxDataFrame} (htype : byteAt p 0 = 0x90#8) (h : decodeRxOp p = .ok x) :
    rxPayload x.source x.src16 x.options x.payload = p := by
  unfold decodeRxOp at h
  split at h
  · cases h
  · split at h
    · cases h
    · next hlen =>
      cases h
      rw [rxPayload, be64bytes_addrAt, be16bytes_halfAt, ← htype]
      exact map_byteAt_append_drop (Nat.le_of_not_lt hlen)

theorem remoteRespPayload_of_decode {p : Bytes} {x : RemoteATCmdResponse} (htype : byteAt p 0 = 0x97#8)
    (h : decodeRemoteAtRespOp p = .ok x) :
    remoteRespPayload x.mark x.source x.src16 x.mnemonic x.statusCode x.data = p := by
  unfold decodeRemoteAtRespOp at h
  split at h
  · cases h
  · split at h
    · cases h
    · next hlen =>
      cases h
      rw [remoteRespPayload, be64bytes_addrAt, be16bytes_halfAt, ← htype]
      exact map_byteAt_append_drop (Nat.le_of_not_lt hlen)

theorem encode_of_decodeProduced {side : Side} {p : Bytes} {i : Instr}
    (h : decodeProduced side (byteAt p 0) p = .ok i) : encode i = (side.port, p) := by
  unfold decodeProduced at h
  split at h
  · next htype =>
    split at h
    · cases h
    · next hlen =>
      cases h
      rw [encode, ← htype, atPayload_fields (Nat.le_of_not_lt hlen)]
  split at h
  · next htype =>
    split at h
    · cases h
    · next hlen =>
      cases h
      rw [encode, ← htype, atPayload_fields (Nat.le_of_not_lt hlen)]
  split at h
  · next htype =>
    split at h
    · cases h
    · next hlen =>
      cases h
      rw [encode, txPayload_fields htype (Nat.le_of_not_lt hlen)]
  split at h
  · next htype =>
    split at h
    · cases h
    · next hlen =>
      cases h
      rw [encode, remoteAtPayload_fields htype (Nat.le_of_not_lt hlen)]
  · cases h

theorem encode_of_decodeConsumed {p : Bytes} {i : Instr} (h : decodeConsumed (byteAt p 0) p = .ok i) :
    encode i = (.received, p) := by
  unfold decodeConsumed at h
  split at h
  · next htype =>
    split at h
    · cases h
    · next hx =>
      cases h
      rw [encode, atRespPayload_of_decode htype hx]
  split at h
  · next htype =>
    split at h
    · cases h
    · next hx =>
      cases h
      rw [encode, txStatusPayload_of_decode htype hx]
  split at h
  · next htype =>
    split at h
    · cases h
    · next hx =>
      cases h
      rw [encode, rxPayload_of_decode htype hx]
  split at h
  · next htype =>
    split at h
    · cases h
    · next hx =>
      cases h
      rw [encode, remoteRespPayload_of_decode htype hx]
  · exact encode_of_decodeProduced h

/-! ## The two directions, and the router -/

/-- A frame of a produced type is decoded alike on its two sides. -/
theorem decode_port_of_decodeProduced {side : Side} {type : Byte} {r : Bytes} {i : Instr}
    (htype : type ≠ 0x88#8 ∧ type ≠ 0x8B#8 ∧ type ≠ 0x90#8 ∧ type ≠ 0x97#8)
    (h : decodeProduced side type (type :: r) = .ok i) : decode side.port (type :: r) = .ok i := by
  obtain ⟨h88, h8B, h90, h97⟩ := htype
  cases side with
  | sent => exact h
  | received =>
    show decodeConsumed type (type :: r) = .ok i
    rw [decodeConsumed, if_neg h88, if_neg h8B, if_neg h90, if_neg h97, h]

/-- Settles O1: each constructor has its layout, and each layout is read back field by field. -/
theorem decodeOfEncodedInstruction : Obligations.DecodeOfEncodedInstruction := by
  intro i
  cases i with
  | atCommandFrame side mark mn param =>
    exact decode_port_of_decodeProduced (by decide) (decodeProduced_atPayload side mark mn param)
  | queuedAtCommandFrame side mark mn param =>
    exact decode_port_of_decodeProduced (by decide) (decodeProduced_queuedAtPayload side mark mn param)
  | txRequestFrame side mark a h radius options data =>
    exact decode_port_of_decodeProduced (by decide) (decodeProduced_txPayload side mark a h radius options data)
  | remoteAtCommandFrame side mark a h options mn param =>
    exact decode_port_of_decodeProduced (by decide) (decodeProduced_remoteAtPayload side mark a h options mn param)
  | atCommandResponseFrame mark mn status data =>
    show decodeConsumed 0x88#8 (atRespPayload mark mn status data) = _
    simp [decodeConsumed, decodeAtRespOp_atRespPayload]
  | txStatusFrame mark h retry delivery discovery =>
    show decodeConsumed 0x8B#8 (txStatusPayload mark h retry delivery discovery) = _
    simp [decodeConsumed, decodeTxStatusOp_txStatusPayload]
    rfl
  | rxIndicatorFrame a h options data =>
    show decodeConsumed 0x90#8 (rxPayload a h options data) = _
    simp [decodeConsumed, decodeRxOp_rxPayload]
  | remoteCommandResponseFrame mark a h mn status data =>
    show decodeConsumed 0x97#8 (remoteRespPayload mark a h mn status data) = _
    simp [decodeConsumed, decodeRemoteAtRespOp_remoteRespPayload]
  | encodeFrame payload => exact finishOperands_of_read (takeOneSized_sizedBytes .encodeFrame payload) 0x01
  | decodeFrame raw => exact finishOperands_of_read (takeOneSized_sizedBytes .decodeFrame raw) 0x02
  | syncStep buf atEnd => exact finishOperands_of_read (takeSyncStep_bytes buf atEnd) 0x03
  | acquire => rfl
  | release mark resp => exact finishOperands_of_read (takeRelease_bytes mark resp) 0x05
  | abandon mark ticket code => exact finishOperands_of_read (takeAbandon_bytes mark ticket code) 0x06
  | awaitSlot ticket => exact finishOperands_of_read (takeOneNat_natBytes .awaitSlot ticket) 0x07
  | encodeAt mn param mark queued => exact finishOperands_of_read (takeEncodeAt_bytes mn param mark queued) 0x08
  | encodeRemoteAt mn param mark dest options =>
    exact finishOperands_of_read (takeEncodeRemoteAt_bytes mn param mark dest options) 0x09
  | encodeTx mark dest radius options data =>
    exact finishOperands_of_read (takeEncodeTx_bytes mark dest radius options data) 0x0A
  | decodeAtResp payload => exact finishOperands_of_read (takeOneSized_sizedBytes .decodeAtResp payload) 0x0B
  | decodeRemoteAtResp payload =>
    exact finishOperands_of_read (takeOneSized_sizedBytes .decodeRemoteAtResp payload) 0x0C
  | decodeRx payload => exact finishOperands_of_read (takeOneSized_sizedBytes .decodeRx payload) 0x0D
  | decodeTxStatus payload => exact finishOperands_of_read (takeOneSized_sizedBytes .decodeTxStatus payload) 0x0E
  | write data => exact finishOperands_of_read (takeOneSized_sizedBytes .write data) 0x0F
  | atCommand mn param queued => exact finishOperands_of_read (takeAtCommand_bytes mn param queued) 0x10
  | remoteAtCommand dest options mn param =>
    exact finishOperands_of_read (takeRemoteAtCommand_bytes dest options mn param) 0x11
  | read nmax => exact finishOperands_of_read (takeOneNat_natBytes .read nmax) 0x12
  | close => rfl

/-- Settles O2: what `decodeReceived` reads, put together again, is the payload. -/
theorem encodeOfDecodedPayload : Obligations.EncodeOfDecodedPayload := by
  intro p i h
  cases p with
  | nil => cases h
  | cons type r => exact encode_of_decodeConsumed h

/-- The router reads the type byte of a layout and goes to the meaning of its frame (R250). -/
theorem exec_eq_dispatchPayload {i : Instr} (h : (encode i).1 = .received) (s : State) :
    exec i s = .next (dispatchPayload (encode i).2 s) := by
  cases i with
  | atCommandFrame side mark mn param =>
    cases side with
    | sent => cases h
    | received => rfl
  | queuedAtCommandFrame side mark mn param =>
    cases side with
    | sent => cases h
    | received => rfl
  | txRequestFrame side mark a a16 radius options data =>
    cases side with
    | sent => cases h
    | received => rfl
  | remoteAtCommandFrame side mark a a16 options mn param =>
    cases side with
    | sent => cases h
    | received => rfl
  | atCommandResponseFrame mark mn status data => rfl
  | txStatusFrame mark a16 retry delivery discovery => rfl
  | rxIndicatorFrame a a16 options data => rfl
  | remoteCommandResponseFrame mark a a16 mn status data => rfl
  | _ => cases h

/-- Settles O33: the payload is the encoding of the instruction, and the router reads encodings. -/
theorem routerAgreesWithTheFrames : Obligations.RouterAgreesWithTheFrames := by
  intro p i s h
  have henc : encode i = (.received, p) := encodeOfDecodedPayload p i h
  have hexec := exec_eq_dispatchPayload (congrArg Prod.fst henc) s
  rwa [henc] at hexec

/-- Settles O3: the decoder evaluated on each word. -/
theorem knownWordsDecode : Obligations.KnownWordsDecode := by
  refine ⟨?_, ?_, ?_, ?_, ?_, ?_⟩ <;> decide

end Sys2Proof.Machine
end

section
/-! Malformed requests (30_encoding.md R105) and the numbers of the errors (60_exceptions.md R310), with ABANDON, whose
code operand is such a number (42_tag_pool.md R174). -/

namespace Sys2Proof.Machine

/-! ## Malformed requests -/

/-- The codes that R103 does not assign, among the values of the 5-bit field. -/
theorem decodeOperands_of_reserved {op : Nat} (h : op = 0x00 ∨ 0x14 ≤ op) (operands : Bytes) :
    decodeOperands op operands = .error (.reservedOp op) := by
  unfold decodeOperands
  iterate 19 rw [if_neg (by omega)]

/-- A record that is no instruction is answered and nothing else happens (R105). -/
theorem step_request_of_malformed {s : State} {c : CallerId} {bytes : Bytes} {rest : List Input} {e : Reject}
    (hin : s.inputs = .request c bytes :: rest) (hidle : s.callAt c = .idle)
    (h : decode .hostRequest bytes = .error e) :
    step s = .next (answered { s with inputs := rest, reqCaller := c } (.err .invalidRequest)) := by
  have hidle' : State.callAt { s with inputs := rest } c = .idle := hidle
  rw [step_of_input hin, fetchInput, fetchRequest, if_pos hidle', h]
  rfl

/-! ## The numbers of the errors -/

theorem errorCodeOk_code (e : Err) : errorCodeOk e.code = true := by
  cases e <;> rfl

/-- One row of R310 in the table of `errOfCode`. -/
theorem code_of_row {row code : Byte} {x e : Err} {rows : Option Err} (hrow : x.code = row)
    (hrows : rows = some e → e.code = code) (h : (if code = row then some x else rows) = some e) : e.code = code := by
  split at h
  · next hcode =>
    cases h
    rw [hrow, hcode]
  · exact hrows h

theorem code_of_errOfCode {k : Nat} {code : Byte} {e : Err} : errOfCode k code = some e → e.code = code := by
  unfold errOfCode
  iterate 17 refine code_of_row rfl ?_
  exact fun h => nomatch h

theorem exists_errOfCode {code : Byte} (h : errorCodeOk code = true) (k : Nat) : ∃ e, errOfCode k code = some e := by
  obtain ⟨n, hn, rfl⟩ : ∃ n, n < 0x11 ∧ code = BitVec.ofNat 8 (n + 1) := by
    simp only [errorCodeOk, Bool.and_eq_true, decide_eq_true_eq] at h
    exact ⟨code.toNat - 1, by omega, BitVec.eq_of_toNat_eq (by rw [BitVec.toNat_ofNat]; omega)⟩
  interval_cases n <;> exact ⟨_, rfl⟩

/-- An ABANDON code names an error exactly when it is one of R310's. -/
theorem exists_errOfCode_iff (k : Nat) (code : Byte) :
    (∃ e, errOfCode k code = some e) ↔ errorCodeOk code = true :=
  ⟨fun ⟨e, h⟩ => code_of_errOfCode h ▸ errorCodeOk_code e, fun h => exists_errOfCode h k⟩

theorem errOfCode_eq_none {code : Byte} (h : errorCodeOk code = false) (k : Nat) : errOfCode k code = none := by
  cases he : errOfCode k code with
  | none => rfl
  | some e => rw [(exists_errOfCode_iff k code).1 ⟨e, he⟩] at h; cases h

/-- Settles O60: the table of R310 read off, and its inverse on the codes of ABANDON. -/
theorem errorCodesAreNumbered : Obligations.ErrorCodesAreNumbered :=
  ⟨fun _ => rfl, fun _ => rfl, rfl, fun _ => rfl, fun _ _ => rfl, fun _ => rfl, rfl, fun _ => rfl, fun _ => rfl,
    fun _ => rfl, rfl, fun _ _ => rfl, fun _ _ => rfl, fun _ => rfl, rfl, fun _ => rfl, fun _ => rfl, rfl, rfl,
    errorCodeOk_code, exists_errOfCode_iff, fun _ _ _ => code_of_errOfCode⟩

/-- Settles O4: no code outside R103 has operands, and both kinds of malformed request are answered at once. -/
theorem malformedRequestsAreInvalid : Obligations.MalformedRequestsAreInvalid := by
  refine ⟨fun b ops h => decodeOperands_of_reserved h ops, fun c0 => rfl, fun s c bytes rest e => ?_,
    fun m t code s hcode => exec_abandon_of_bad_code (errOfCode_eq_none hcode _) m t⟩
  exact step_request_of_malformed

/-- Settles O23: a legal code names an error of that number, and whether the ticket holds the mark decides the rest. -/
theorem abandonFreesOnlyItsOwnAllocation : Obligations.AbandonFreesOnlyItsOwnAllocation := by
  refine ⟨fun s m t code hcode hm => ?_, fun s m t code hcode hm => ?_⟩
  · obtain ⟨e, he⟩ := (exists_errOfCode_iff s.freeCount code).2 hcode
    refine ⟨_, e, exec_abandon_of_held he hm, code_of_errOfCode he, rfl, fun m' => s.poolAt_setPool m m' none,
      fun k => (s.setPool m none).slotAt_setSlot t k (.failed e)⟩
  · obtain ⟨e, he⟩ := (exists_errOfCode_iff s.freeCount code).2 hcode
    exact exec_abandon_of_not_held he hm

end Sys2Proof.Machine
end

section
/-! The session, queue, size and form invariants (10_state.md R21, R27; 41_synchronizer.md R148; 42_tag_pool.md R170,
R176; 45_router.md R251; 60_exceptions.md R316) and the hold invariant (46_session.md R298). First what each shared
operation does to them, then each instruction and each step, then the statements, with those on the state after reset
(10_state.md R38). -/

namespace Sys2Proof.Machine

/-- The invariants that every step keeps with no regard to the pool invariants. -/
structure BlockInv (s : State) : Prop where
  session : SessionInv s
  queue : QueueInv s
  size : SizeInv s
  form : FormInv s

namespace BlockInv

variable {s u : State}

/-! ## The fields that the invariants read -/

/-- The invariants speak of `SESS` and the close control, `SYNCBUF`, `TXQ`, `POOL`, the two tables, the configuration
and `RDBUF` alone. -/
theorem frame (hs : BlockInv s) (hsess : u.sess = s.sess) (hctl : u.closeCtl = s.closeCtl)
    (hsync : u.syncbuf = s.syncbuf) (htxq : u.txq = s.txq) (hpool : u.pool = s.pool) (hslots : u.slots = s.slots)
    (hcalls : u.calls = s.calls) (hcfg : u.cfg = s.cfg) (hrdbuf : u.rdbuf = s.rdbuf) : BlockInv u where
  session := {
    closeControl := by rw [hctl, hsess, hs.session.closeControl]
    closedQuiet := by simpa only [hsess, hsync, htxq, State.poolAt, hpool] using hs.session.closedQuiet }
  queue := by simpa only [QueueInv, htxq] using hs.queue
  size := {
    calls := by simpa only [State.callAt, hcalls] using hs.size.calls
    rdbuf := by simpa only [hcfg, hrdbuf] using hs.size.rdbuf }
  form := {
    slots := hslots ▸ hs.form.slots
    calls := hcalls ▸ hs.form.calls
    cfg := hcfg ▸ hs.form.cfg }

theorem emit (hs : BlockInv s) (e : Event) : BlockInv (s.emit e) := hs.frame rfl rfl rfl rfl rfl rfl rfl rfl rfl

theorem complete (hs : BlockInv s) (c : CallerId) (x : Completion) : BlockInv (s.complete c x) :=
  hs.frame rfl rfl rfl rfl rfl rfl rfl rfl rfl

theorem setCall (hs : BlockInv s) (c : CallerId) (v : CallState)
    (hv : ∀ ph op m t, v = .session ph op m t → callSize op ≤ callLimit op ∧ m ≠ 0#8) : BlockInv (s.setCall c v) where
  session := ⟨hs.session.closeControl, hs.session.closedQuiet⟩
  queue := hs.queue
  size := {
    calls := by
      intro c' ph op m t h
      rw [State.callAt_setCall] at h
      split at h
      · exact hv ph op m t h
      · exact hs.size.calls c' ph op m t h
    rdbuf := hs.size.rdbuf }
  form := ⟨hs.form.slots, tableSet_wf CallState.idle s.calls c v hs.form.calls, hs.form.cfg⟩

theorem setCall_idle (hs : BlockInv s) (c : CallerId) : BlockInv (s.setCall c .idle) :=
  hs.setCall c .idle (fun _ _ _ _ h => nomatch h)

theorem setSlot (hs : BlockInv s) (t : Ticket) (v : SlotState) : BlockInv (s.setSlot t v) where
  session := ⟨hs.session.closeControl, hs.session.closedQuiet⟩
  queue := hs.queue
  size := ⟨hs.size.calls, hs.size.rdbuf⟩
  form := ⟨tableSet_wf SlotState.unused s.slots t v hs.form.slots, hs.form.calls, hs.form.cfg⟩

theorem freeMark (hs : BlockInv s) (m : Mark) : BlockInv (s.setPool m none) where
  session := {
    closeControl := hs.session.closeControl
    closedQuiet := by
      intro r hr
      obtain ⟨hsync, htxq, hpool⟩ := hs.session.closedQuiet r hr
      refine ⟨hsync, htxq, fun m' hm' => ?_⟩
      rw [State.poolAt_setPool, hpool m' hm', ite_self] }
  queue := hs.queue
  size := ⟨hs.size.calls, hs.size.rdbuf⟩
  form := ⟨hs.form.slots, hs.form.calls, hs.form.cfg⟩

theorem setRdbuf (hs : BlockInv s) {b : Bytes} (hb : ∀ n, s.cfg.rdbufCap = some n → b.length ≤ n) :
    BlockInv { s with rdbuf := b } where
  session := ⟨hs.session.closeControl, hs.session.closedQuiet⟩
  queue := hs.queue
  size := ⟨hs.size.calls, hb⟩
  form := ⟨hs.form.slots, hs.form.calls, hs.form.cfg⟩

/-- `TXQ` may lose frames. -/
theorem setTxq_subset (hs : BlockInv s) {q : List (Ticket × Bytes)} (h : q ⊆ s.txq) : BlockInv { s with txq := q } where
  session := {
    closeControl := hs.session.closeControl
    closedQuiet := by
      intro r hr
      obtain ⟨hsync, htxq, hpool⟩ := hs.session.closedQuiet r hr
      exact ⟨hsync, List.subset_nil.1 (htxq ▸ h), hpool⟩ }
  queue := fun e he => hs.queue e (h he)
  size := ⟨hs.size.calls, hs.size.rdbuf⟩
  form := ⟨hs.form.slots, hs.form.calls, hs.form.cfg⟩

/-- `SYNCBUF` may lose bytes at its front. -/
theorem dropSyncbuf (hs : BlockInv s) (n : Nat) : BlockInv { s with syncbuf := s.syncbuf.drop n } where
  session := {
    closeControl := hs.session.closeControl
    closedQuiet := by
      intro r hr
      obtain ⟨hsync, htxq, hpool⟩ := hs.session.closedQuiet r hr
      exact ⟨by simp only [hsync, List.drop_nil], htxq, hpool⟩ }
  queue := hs.queue
  size := ⟨hs.size.calls, hs.size.rdbuf⟩
  form := ⟨hs.form.slots, hs.form.calls, hs.form.cfg⟩

/-! ## What needs an open session -/

/-- An open session may take a chunk (R145). -/
theorem setSyncbuf_of_open (hs : BlockInv s) (hopen : s.sess = .isOpen) (b : Bytes) :
    BlockInv { s with syncbuf := b } where
  session := ⟨hs.session.closeControl, fun _ hr => nomatch hopen.symm.trans hr⟩
  queue := hs.queue
  size := ⟨hs.size.calls, hs.size.rdbuf⟩
  form := ⟨hs.form.slots, hs.form.calls, hs.form.cfg⟩

/-- An open session may queue a whole frame (R270). -/
theorem queueFrame_of_open (hs : BlockInv s) (hopen : s.sess = .isOpen) {p f : Bytes} (hf : encodeFrameOp p = .ok f)
    (t : Ticket) : BlockInv { s with txq := s.txq ++ [(t, f)] } where
  session := ⟨hs.session.closeControl, fun _ hr => nomatch hopen.symm.trans hr⟩
  queue := by
    intro e he
    rcases List.mem_append.1 he with he | he
    · exact hs.queue e he
    · obtain ⟨hp, rfl⟩ := encodeFrameOp_eq_ok_iff.1 hf
      cases List.mem_singleton.1 he
      exact ⟨p, decodeFrameOp_wireFrame hp⟩
  size := ⟨hs.size.calls, hs.size.rdbuf⟩
  form := ⟨hs.form.slots, hs.form.calls, hs.form.cfg⟩

/-- An open session may reserve a mark (R170). -/
theorem reserve_of_open (hs : BlockInv s) (hopen : s.sess = .isOpen) (m : Mark) : BlockInv (s.reserve m) where
  session := ⟨hs.session.closeControl, fun _ hr => nomatch hopen.symm.trans hr⟩
  queue := hs.queue
  size := ⟨hs.size.calls, hs.size.rdbuf⟩
  form := ⟨tableSet_wf SlotState.unused s.slots s.nextTicket .waiting hs.form.slots, hs.form.calls, hs.form.cfg⟩

/-- The entry into the fatal path asserts the close control as it ends the session (R316). -/
theorem enterFatal (hs : BlockInv s) (r : Reason) : BlockInv (enterFatal r s) where
  session := ⟨rfl, fun _ hr => nomatch hr⟩
  queue := hs.queue
  size := ⟨hs.size.calls, hs.size.rdbuf⟩
  form := ⟨hs.form.slots, hs.form.calls, hs.form.cfg⟩

theorem fresh {cfg : Cfg} (hcfg : cfg.valid = true) (inputs : List Input) (k : Nat) :
    BlockInv (State.fresh cfg inputs k) where
  session := ⟨rfl, fun _ hr => nomatch hr⟩
  queue := fun _ he => nomatch he
  size := ⟨fun _ _ _ _ _ h => (nomatch h), fun _ _ => Nat.zero_le _⟩
  form := ⟨rfl, rfl, hcfg⟩

/-! ## The shared operations -/

theorem releaseOp (hs : BlockInv s) (m : Mark) (resp : Bytes) : BlockInv (releaseOp m resp s) := by
  rcases releaseOp_cases m resp s with ⟨_, _, h⟩ | ⟨t, _, _, h⟩ <;> rw [h]
  · exact hs.emit _
  · exact (hs.freeMark m).setSlot t _

theorem abandonOp (hs : BlockInv s) (m : Mark) (t : Ticket) (e : Err) : BlockInv (abandonOp m t e s) := by
  rcases abandonOp_cases m t e s with ⟨_, h⟩ | ⟨_, h⟩ <;> rw [h]
  · exact (hs.freeMark m).setSlot t _
  · exact hs

theorem awaitOp (hs : BlockInv s) {t : Ticket} {s' : State} {x : Except Err Bytes}
    (h : awaitOp t s = some (s', x)) : BlockInv s' := by
  rcases awaitOp_cases t s with ⟨_, h'⟩ | ⟨_, h'⟩ | ⟨b, _, h'⟩ | ⟨e, _, h'⟩ <;> rw [h'] at h <;> cases h
  · exact hs
  · exact hs.setSlot t _
  · exact hs.setSlot t _

/-- TAKE leaves fewer bytes in `RDBUF`. -/
theorem takeOp (hs : BlockInv s) {nmax : Nat} {s' : State} {x : Except Err Bytes}
    (h : takeOp nmax s = some (s', x)) : BlockInv s' := by
  rcases takeOp_cases nmax s with ⟨_, _, h'⟩ | ⟨r, _, _, h'⟩ | ⟨_, h'⟩ <;> rw [h'] at h <;> cases h
  · exact hs
  · refine hs.setRdbuf fun n hn => le_trans ?_ (hs.size.rdbuf n hn)
    rw [List.length_drop]
    exact Nat.sub_le _ _

theorem routeRx (hs : BlockInv s) (p : Bytes) : BlockInv (routeRx p s) := by
  rcases routeRx_cases p s with ⟨e, _, h⟩ | ⟨r, _, hfits, h⟩ | ⟨r, n, _, _, _, h⟩ <;> rw [h]
  · exact hs.emit _
  · exact hs.setRdbuf fun n hn => by simpa using hfits n hn
  · exact hs.emit _

theorem startCall (hs : BlockInv s) (op : Call) : BlockInv (startCall op s) := by
  rcases startCall_cases op s with ⟨e, h⟩ | ⟨m, hended, hsize, hm, h⟩ <;> rw [h]
  · exact hs.complete _ _
  · obtain ⟨hne, _, _⟩ := s.freeMark_some m hm
    refine (hs.reserve_of_open (SessionStatus.ended_eq_none_iff.1 hended) m).setCall _ _ fun _ _ _ _ h => ?_
    cases h
    exact ⟨hsize, hne⟩

/-- The call of a SEND phase keeps its operands and its mark. -/
theorem sendPhase (hs : BlockInv s) (p : Bytes) {op : Call} {m : Mark} {t : Ticket}
    (hcall : s.callAt s.reqCaller = .session .send op m t) : BlockInv (sendPhase p op m t s) := by
  have hwait : BlockInv (s.setCall s.reqCaller (.session .wait op m t)) :=
    hs.setCall _ _ fun _ _ _ _ h => by cases h; exact hs.size.calls _ _ _ _ _ hcall
  rcases sendPhase_cases p op m t s with ⟨f, hopen, hf, h⟩ | ⟨e, _, _, h⟩ | ⟨_, h⟩ <;> rw [h]
  · exact hwait.queueFrame_of_open hopen hf t
  · exact (hs.setCall_idle _).complete _ _
  · exact hwait

theorem waitPhase (hs : BlockInv s) (c : CallerId) (op : Call) (m : Mark) (t : Ticket) :
    BlockInv (waitPhase c op m t s) := by
  rcases waitPhase_cases c op m t s with ⟨_, h⟩ | ⟨s', x, ha, h⟩ <;> rw [h]
  · exact hs
  · exact (((hs.awaitOp ha).abandonOp m t .abandoned).setCall_idle c).complete _ _

theorem awaitPhase (hs : BlockInv s) (c : CallerId) (t : Ticket) : BlockInv (awaitPhase c t s) := by
  rcases awaitPhase_cases c t s with ⟨_, h⟩ | ⟨s', x, y, ha, h⟩ <;> rw [h]
  · exact hs
  · exact ((hs.awaitOp ha).setCall_idle c).complete _ _

theorem takePhase (hs : BlockInv s) (c : CallerId) (nmax : Nat) : BlockInv (takePhase c nmax s) := by
  rcases takePhase_cases c nmax s with h | ⟨s', x, y, ht, h⟩ <;> rw [h]
  · exact hs
  · exact ((hs.takeOp ht).setCall_idle c).complete _ _

theorem ingest (hs : BlockInv s) (ch : Bytes) : BlockInv (ingest ch s) := by
  unfold Machine.ingest
  split
  · next h => exact hs.setSyncbuf_of_open h.1 _
  · exact hs

theorem rxEnd (hs : BlockInv s) (r : RxEndReason) : BlockInv (rxEnd r s) := by
  unfold Machine.rxEnd
  split
  · exact hs.enterFatal _
  · exact hs

theorem scanConsume (hs : BlockInv s) : BlockInv (scanConsume s) :=
  (hs.dropSyncbuf (scanResult s).consumed).frame rfl rfl rfl rfl rfl rfl rfl rfl rfl

/-- FINALIZE leaves nothing buffered, nothing queued and no mark above 0 reserved (R148, R176). -/
theorem finalize (hs : BlockInv s) : BlockInv (finalize s) := by
  rcases finalize_cases s with h | ⟨r, hr, _, h⟩ <;> rw [h]
  · exact hs
  · obtain ⟨hframe, hpool, -, -, hslots⟩ := forceReleaseAll_spec (.transportClosed r)
      { s with diag := s.diag ++ leftoverEvents s, syncbuf := [], txq := [] }
    have hctl : s.closeCtl = true := by rw [hs.session.closeControl, hr]; rfl
    refine ⟨⟨?_, fun _ _ => ⟨?_, ?_, fun m hm => ?_⟩⟩, ?_, ⟨?_, ?_⟩, ⟨hslots hs.form.slots, ?_, ?_⟩⟩
    · rw [hframe]; exact hctl
    · rw [hframe]
    · rw [hframe]
    · exact (hpool m).trans (if_neg hm)
    · rw [hframe]; exact fun _ he => nomatch he
    · rw [hframe]; exact hs.size.calls
    · rw [hframe]; exact hs.size.rdbuf
    · rw [hframe]; exact hs.form.calls
    · rw [hframe]; exact hs.form.cfg

theorem txSend (hs : BlockInv s) (o : WriteOutcome) : BlockInv (txSend o s) := by
  rcases txSend_cases o s with h | ⟨t, f, rest, _, hq, _, h⟩ | ⟨t, f, rest, j, _, hq, _, _, h⟩ <;> rw [h]
  · exact hs
  · exact (hs.setTxq_subset (q := rest) (by simp [hq])).frame rfl rfl rfl rfl rfl rfl rfl rfl rfl
  · have hended := (hs.setTxq_subset (q := rest) (by simp [hq])).enterFatal .writeError
    exact hended.frame rfl rfl rfl rfl rfl rfl rfl rfl rfl

theorem timeoutStep (hs : BlockInv s) (c : CallerId) : BlockInv (timeoutStep c s) := by
  rcases timeoutStep_cases c s with h | ⟨op, m, t, _, _, _, h⟩ <;> rw [h]
  · exact hs
  · exact (hs.setTxq_subset (List.filter_subset_self _)).abandonOp m t .timeout

/-! ## Every instruction and every step -/

theorem execEffect (hs : BlockInv s) (h : ExecEffect s u) : BlockInv u := by
  cases h with
  | nothing => exact hs
  | report e => exact hs.emit e
  | respond m p => exact hs.releaseOp m p
  | receive p => exact hs.routeRx p
  | send p op m t hcall => exact hs.sendPhase p hcall
  | answer x => exact hs.complete _ x
  | acquire m hended _ => exact (hs.reserve_of_open (SessionStatus.ended_eq_none_iff.1 hended) m).complete _ _
  | release m resp x => exact (hs.releaseOp m resp).complete _ x
  | abandon m t e k x => exact (hs.abandonOp m t e).frame rfl rfl rfl rfl rfl rfl rfl rfl rfl
  | await t s' r x ha => exact (hs.awaitOp ha).complete _ x
  | awaiting t _ => exact hs.setCall _ _ fun _ _ _ _ h => nomatch h
  | start op => exact hs.startCall op
  | read nmax s' r x ht => exact (hs.takeOp ht).complete _ x
  | reading nmax => exact hs.setCall _ _ fun _ _ _ _ h => nomatch h
  | close _ => exact (hs.enterFatal .localClose).complete _ _

theorem stepEffect (hs : BlockInv s) {x : Input} (h : StepEffect s x u) : BlockInv u := by
  have hcaller : ∀ c, BlockInv { s with reqCaller := c } := fun c => hs.frame rfl rfl rfl rfl rfl rfl rfl rfl rfl
  cases h with
  | idle => exact hs
  | reset cfg hcfg => exact fresh hcfg s.inputs s.freeCount
  | request c bytes u _ he => exact (hcaller c).execEffect he
  | send c op m t u _ he => exact (hcaller c).execEffect he
  | wait c op m t _ => exact hs.waitPhase c op m t
  | await c t _ => exact hs.awaitPhase c t
  | take c nmax _ => exact hs.takePhase c nmax
  | ingest ch => exact hs.ingest ch
  | rxEnd r => exact hs.rxEnd r
  | scan u _ he => exact hs.scanConsume.execEffect he
  | finalize => exact hs.finalize
  | txSend o => exact hs.txSend o
  | timeout c => exact hs.timeoutStep c

end BlockInv

/-! ## The hold invariant -/

namespace HoldInv

variable {s u : State}

/-- The invariant speaks of `POOL`, `SLOT` and `CALLS` alone. -/
theorem frame (hs : HoldInv s) (hpool : u.pool = s.pool) (hslots : u.slots = s.slots) (hcalls : u.calls = s.calls) :
    HoldInv u := by
  simpa only [HoldInv, State.poolAt, State.slotAt, State.callAt, hpool, hslots, hcalls] using hs

theorem emit (hs : HoldInv s) (e : Event) : HoldInv (s.emit e) := hs.frame rfl rfl rfl

theorem complete (hs : HoldInv s) (c : CallerId) (x : Completion) : HoldInv (s.complete c x) := hs.frame rfl rfl rfl

theorem setCall (hs : HoldInv s) (c : CallerId) (v : CallState)
    (hv : ∀ ph op m t, v = .session ph op m t → s.slotAt t = .waiting → s.poolAt m = some t) :
    HoldInv (s.setCall c v) := by
  intro c' ph op m t hcall hwait
  rw [State.callAt_setCall] at hcall
  split at hcall
  · exact hv ph op m t hcall hwait
  · exact hs c' ph op m t hcall hwait

theorem setCall_idle (hs : HoldInv s) (c : CallerId) : HoldInv (s.setCall c .idle) :=
  hs.setCall c .idle (fun _ _ _ _ h => nomatch h)

/-- A mark is freed in the same step in which its slot gets a result (R173, R174, R176). -/
theorem settle (hs : HoldInv s) {m : Mark} {t : Ticket} (h : s.poolAt m = some t) {v : SlotState}
    (hv : v ≠ .waiting) : HoldInv ((s.setPool m none).setSlot t v) := by
  intro c ph op m' t' hcall hwait
  rw [State.slotAt_setSlot] at hwait
  split at hwait
  · exact absurd hwait hv
  · next ht =>
    have hheld : s.poolAt m' = some t' := hs c ph op m' t' hcall hwait
    have hm : m' ≠ m := fun heq => ht (Option.some.inj (hheld.symm.trans (heq ▸ h)))
    rw [State.setSlot_poolAt, State.poolAt_setPool, if_neg hm, hheld]

theorem retire (hs : HoldInv s) (t : Ticket) : HoldInv (s.setSlot t .retired) := by
  intro c ph op m' t' hcall hwait
  rw [State.slotAt_setSlot] at hwait
  split at hwait
  · cases hwait
  · exact hs c ph op m' t' hcall hwait

/-- A reservation takes a free mark and a ticket that no call has (R30, R170). -/
theorem reserve (hs : HoldInv s) (hp : PoolInv s) {m : Mark} (hfree : s.poolAt m = none) : HoldInv (s.reserve m) := by
  intro c ph op m' t hcall hwait
  have hcall' : s.callAt c = .session ph op m' t := hcall
  have ht : t ≠ s.nextTicket := Nat.ne_of_lt (hp.callTickets c t (by rw [hcall', CallState.ticket]))
  rw [State.reserve_slotAt, if_neg ht] at hwait
  have hheld : s.poolAt m' = some t := hs c ph op m' t hcall' hwait
  have hm : m' ≠ m := fun heq => by rw [heq, hfree] at hheld; cases hheld
  rw [State.reserve_poolAt, if_neg hm, hheld]

theorem fresh (cfg : Cfg) (inputs : List Input) (k : Nat) : HoldInv (State.fresh cfg inputs k) :=
  fun _ _ _ _ _ hcall _ => nomatch hcall

theorem routeRx (hs : HoldInv s) (p : Bytes) : HoldInv (routeRx p s) := by
  rcases routeRx_cases p s with ⟨e, _, h⟩ | ⟨r, _, _, h⟩ | ⟨r, n, _, _, _, h⟩ <;> rw [h]
  · exact hs.emit _
  · exact hs.frame rfl rfl rfl
  · exact hs.emit _

theorem releaseOp (hs : HoldInv s) (m : Mark) (resp : Bytes) : HoldInv (releaseOp m resp s) := by
  rcases releaseOp_cases m resp s with ⟨_, _, h⟩ | ⟨t, ht, _, h⟩ <;> rw [h]
  · exact hs.emit _
  · exact hs.settle ht (by simp)

theorem abandonOp (hs : HoldInv s) (m : Mark) (t : Ticket) (e : Err) : HoldInv (abandonOp m t e s) := by
  rcases abandonOp_cases m t e s with ⟨ht, h⟩ | ⟨_, h⟩ <;> rw [h]
  · exact hs.settle ht (by simp)
  · exact hs

theorem awaitOp (hs : HoldInv s) {t : Ticket} {s' : State} {x : Except Err Bytes}
    (h : awaitOp t s = some (s', x)) : HoldInv s' := by
  rcases awaitOp_cases t s with ⟨_, h'⟩ | ⟨_, h'⟩ | ⟨b, _, h'⟩ | ⟨e, _, h'⟩ <;> rw [h'] at h <;> cases h
  · exact hs
  · exact hs.retire t
  · exact hs.retire t

theorem takeOp (hs : HoldInv s) {nmax : Nat} {s' : State} {x : Except Err Bytes}
    (h : takeOp nmax s = some (s', x)) : HoldInv s' := by
  rcases takeOp_cases nmax s with ⟨_, _, h'⟩ | ⟨r, _, _, h'⟩ | ⟨_, h'⟩ <;> rw [h'] at h <;> cases h
  · exact hs
  · exact hs.frame rfl rfl rfl

theorem forceReleaseFrom (e : Err) (k : Nat) :
    ∀ (a : Nat) (s : State), HoldInv s → HoldInv (forceReleaseFrom e k a s) := by
  induction k with
  | zero => exact fun _ _ hs => hs
  | succ k ih =>
    intro a s hs
    unfold Machine.forceReleaseFrom
    split
    · exact ih (a + 1) s hs
    · next t ht => exact ih (a + 1) _ (hs.settle ht (by simp))

theorem startCall (hs : HoldInv s) (hp : PoolInv s) (op : Call) : HoldInv (startCall op s) := by
  rcases startCall_cases op s with ⟨e, h⟩ | ⟨m, _, _, hm, h⟩ <;> rw [h]
  · exact hs.complete _ _
  · obtain ⟨_, hfree, _⟩ := s.freeMark_some m hm
    refine (hs.reserve hp hfree).setCall _ _ fun _ _ _ _ h _ => ?_
    cases h
    rw [State.reserve_poolAt, if_pos rfl]

/-- The call of a SEND phase keeps its mark and its ticket. -/
theorem sendPhase (hs : HoldInv s) (p : Bytes) {op : Call} {m : Mark} {t : Ticket}
    (hcall : s.callAt s.reqCaller = .session .send op m t) : HoldInv (sendPhase p op m t s) := by
  have hwait : HoldInv (s.setCall s.reqCaller (.session .wait op m t)) :=
    hs.setCall _ _ fun _ _ _ _ h => by cases h; exact hs _ _ _ _ _ hcall
  rcases sendPhase_cases p op m t s with ⟨f, _, _, h⟩ | ⟨e, _, _, h⟩ | ⟨_, h⟩ <;> rw [h]
  · exact hwait.frame rfl rfl rfl
  · exact (hs.setCall_idle _).complete _ _
  · exact hwait

theorem waitPhase (hs : HoldInv s) (c : CallerId) (op : Call) (m : Mark) (t : Ticket) :
    HoldInv (waitPhase c op m t s) := by
  rcases waitPhase_cases c op m t s with ⟨_, h⟩ | ⟨s', x, ha, h⟩ <;> rw [h]
  · exact hs
  · exact (((hs.awaitOp ha).abandonOp m t .abandoned).setCall_idle c).complete _ _

theorem awaitPhase (hs : HoldInv s) (c : CallerId) (t : Ticket) : HoldInv (awaitPhase c t s) := by
  rcases awaitPhase_cases c t s with ⟨_, h⟩ | ⟨s', x, y, ha, h⟩ <;> rw [h]
  · exact hs
  · exact ((hs.awaitOp ha).setCall_idle c).complete _ _

theorem takePhase (hs : HoldInv s) (c : CallerId) (nmax : Nat) : HoldInv (takePhase c nmax s) := by
  rcases takePhase_cases c nmax s with h | ⟨s', x, y, ht, h⟩ <;> rw [h]
  · exact hs
  · exact ((hs.takeOp ht).setCall_idle c).complete _ _

theorem ingest (hs : HoldInv s) (ch : Bytes) : HoldInv (ingest ch s) := by
  unfold Machine.ingest
  split
  · exact hs.frame rfl rfl rfl
  · exact hs

theorem rxEnd (hs : HoldInv s) (r : RxEndReason) : HoldInv (rxEnd r s) := by
  unfold Machine.rxEnd
  split
  · exact hs.frame rfl rfl rfl
  · exact hs

theorem finalize (hs : HoldInv s) : HoldInv (finalize s) := by
  rcases finalize_cases s with h | ⟨r, _, _, h⟩ <;> rw [h]
  · exact hs
  · have hquiet : HoldInv { s with diag := s.diag ++ leftoverEvents s, syncbuf := [], txq := [] } :=
      hs.frame rfl rfl rfl
    exact (forceReleaseFrom (.transportClosed r) 255 1 _ hquiet).frame rfl rfl rfl

theorem txSend (hs : HoldInv s) (o : WriteOutcome) : HoldInv (txSend o s) := by
  rcases txSend_cases o s with h | ⟨t, f, rest, _, _, _, h⟩ | ⟨t, f, rest, j, _, _, _, _, h⟩ <;> rw [h]
  · exact hs
  · exact hs.frame rfl rfl rfl
  · exact hs.frame rfl rfl rfl

theorem timeoutStep (hs : HoldInv s) (c : CallerId) : HoldInv (timeoutStep c s) := by
  rcases timeoutStep_cases c s with h | ⟨op, m, t, _, _, _, h⟩ <;> rw [h]
  · exact hs
  · have hdropped : HoldInv { s with txq := s.txq.filter (fun e => e.1 != t) } := hs.frame rfl rfl rfl
    exact hdropped.abandonOp m t .timeout

theorem execEffect (hs : HoldInv s) (hp : PoolInv s) (h : ExecEffect s u) : HoldInv u := by
  cases h with
  | nothing => exact hs
  | report e => exact hs.emit e
  | respond m p => exact hs.releaseOp m p
  | receive p => exact hs.routeRx p
  | send p op m t hcall => exact hs.sendPhase p hcall
  | answer x => exact hs.complete _ x
  | acquire m _ hm =>
    obtain ⟨_, hfree, _⟩ := s.freeMark_some m hm
    exact (hs.reserve hp hfree).complete _ _
  | release m resp x => exact (hs.releaseOp m resp).complete _ x
  | abandon m t e k x => exact (hs.abandonOp m t e).frame rfl rfl rfl
  | await t s' r x ha => exact (hs.awaitOp ha).complete _ x
  | awaiting t _ => exact hs.setCall _ _ fun _ _ _ _ h => nomatch h
  | start op => exact hs.startCall hp op
  | read nmax s' r x ht => exact (hs.takeOp ht).complete _ x
  | reading nmax => exact hs.setCall _ _ fun _ _ _ _ h => nomatch h
  | close _ => exact hs.frame rfl rfl rfl

theorem stepEffect (hs : HoldInv s) (hp : PoolInv s) {x : Input} (h : StepEffect s x u) : HoldInv u := by
  have hcaller : ∀ c, HoldInv { s with reqCaller := c } := fun c => hs.frame rfl rfl rfl
  have hpcaller : ∀ c, PoolInv { s with reqCaller := c } := fun c => hp.frame rfl rfl rfl rfl rfl
  cases h with
  | idle => exact hs
  | reset cfg _ => exact fresh cfg s.inputs s.freeCount
  | request c bytes u _ he => exact (hcaller c).execEffect (hpcaller c) he
  | send c op m t u _ he => exact (hcaller c).execEffect (hpcaller c) he
  | wait c op m t _ => exact hs.waitPhase c op m t
  | await c t _ => exact hs.awaitPhase c t
  | take c nmax _ => exact hs.takePhase c nmax
  | ingest ch => exact hs.ingest ch
  | rxEnd r => exact hs.rxEnd r
  | scan u _ he =>
    have hconsumed : HoldInv (scanConsume s) := hs.frame rfl rfl rfl
    have hpconsumed : PoolInv (scanConsume s) := hp.frame rfl rfl rfl rfl rfl
    exact hconsumed.execEffect hpconsumed he
  | finalize => exact hs.finalize
  | txSend o => exact hs.txSend o
  | timeout c => exact hs.timeoutStep c

end HoldInv

/-! ## The statements -/

/-- A step takes its input, if there is one, and then has one of the effects of `StepEffect`. -/
theorem stepEffect_of_step {s u : State} (h : step s = .next u) :
    (s.inputs = [] ∧ u = s) ∨
      ∃ x rest, s.inputs = x :: rest ∧ StepEffect { s with inputs := rest } x u := by
  cases hin : s.inputs with
  | nil =>
    rw [step_of_no_inputs hin] at h
    cases h
    exact .inl ⟨rfl, rfl⟩
  | cons x rest =>
    obtain ⟨u', hu', heff⟩ := step_effect hin
    rw [hu'] at h
    cases h
    exact .inr ⟨x, rest, rfl, heff⟩

/-- Settles O54: no invariant reads the list of inputs, and each effect of a step keeps them. -/
theorem stepKeepsTheSessionInvariants : Obligations.StepKeepsTheSessionInvariants := by
  refine ⟨fun s u hsession hqueue hsize hform hstep => ?_, fun s u hp hs hstep => ?_⟩
  · have hs : BlockInv s := ⟨hsession, hqueue, hsize, hform⟩
    obtain ⟨_, rfl⟩ | ⟨x, rest, _, heff⟩ := stepEffect_of_step hstep
    · exact ⟨hsession, hqueue, hsize, hform⟩
    · have hconsumed : BlockInv { s with inputs := rest } := hs.frame rfl rfl rfl rfl rfl rfl rfl rfl rfl
      obtain ⟨hsession', hqueue', hsize', hform'⟩ := hconsumed.stepEffect heff
      exact ⟨hsession', hqueue', hsize', hform'⟩
  · obtain ⟨_, rfl⟩ | ⟨x, rest, _, heff⟩ := stepEffect_of_step hstep
    · exact hs
    · have hconsumed : HoldInv { s with inputs := rest } := hs.frame rfl rfl rfl
      exact hconsumed.stepEffect (hp.frame rfl rfl rfl rfl rfl) heff

/-- Settles O52: the default configuration is one that R21 allows, and a fresh state meets every invariant. -/
theorem resetMeetsTheInvariants : Obligations.ResetMeetsTheInvariants := by
  obtain ⟨hsession, hqueue, hsize, hform⟩ := BlockInv.fresh (cfg := Config.defaults) rfl [] 0
  exact ⟨PoolInv.fresh _ _ _, hqueue, hsize, HoldInv.fresh _ _ _, hsession, hform⟩

/-- Settles O50: the fields of `State.fresh` and `Config.defaults`. -/
theorem resetValues : Obligations.ResetValues := by
  refine ⟨rfl, rfl, rfl, rfl, fun m => ?_, rfl, fun _ => rfl, rfl, rfl, fun _ => rfl, rfl, rfl, rfl, rfl, rfl, rfl⟩
  simp [State.reset, State.fresh, State.poolAt]

end Sys2Proof.Machine
end

section
/-! The slots and the phases that wait on them (10_state.md R31; 42_tag_pool.md R175, R177; 46_session.md R270, R298).
First the moves of the slots in each shared operation and in each step with their statement, then the WAIT phase and the
hold in AWAIT with the three statements on them. -/

namespace Sys2Proof.Machine

variable {s u : State}

/-! ## Waiting for a slot -/

theorem awaitOp_of_waiting {t : Ticket} (h : s.slotAt t = .waiting) : awaitOp t s = none := by
  rw [awaitOp, h]

theorem awaitOp_of_done {t : Ticket} {b : Bytes} (h : s.slotAt t = .done b) :
    awaitOp t s = some (s.setSlot t .retired, .ok b) := by
  rw [awaitOp, h]

theorem awaitOp_of_failed {t : Ticket} {e : Err} (h : s.slotAt t = .failed e) :
    awaitOp t s = some (s.setSlot t .retired, .error e) := by
  rw [awaitOp, h]

theorem awaitOp_pool {t : Ticket} {s' : State} {x : Except Err Bytes} (h : awaitOp t s = some (s', x)) :
    s'.pool = s.pool := by
  rcases awaitOp_cases t s with ⟨_, h'⟩ | ⟨_, h'⟩ | ⟨b, _, h'⟩ | ⟨e, _, h'⟩ <;> rw [h'] at h <;> cases h <;> rfl

theorem abandonOp_of_not_held {m : Mark} {t : Ticket} (h : s.poolAt m ≠ some t) (e : Err) : abandonOp m t e s = s :=
  if_neg h

theorem abandonOp_of_held {m : Mark} {t : Ticket} (h : s.poolAt m = some t) (e : Err) :
    abandonOp m t e s = (s.setPool m none).setSlot t (.failed e) :=
  if_pos h

/-- A slot that AWAIT does not wait for is not `Waiting`, so no mark holds its ticket (R36 (c)). -/
theorem PoolInv.not_held_of_awaitOp (hp : PoolInv s) {t : Ticket} {s' : State} {x : Except Err Bytes}
    (h : Machine.awaitOp t s = some (s', x)) (m : Mark) : s'.poolAt m ≠ some t := by
  intro hm
  have hheld : s.poolAt m = some t := by simpa only [State.poolAt, awaitOp_pool h] using hm
  rw [awaitOp_of_waiting ((hp.waiting t).2 ⟨m, hheld⟩)] at h
  cases h

/-! ## The moves of the slots -/

/-- Each slot stays as it is or makes one move of R31. -/
def SlotsForward (s u : State) : Prop := ∀ t : Ticket, u.slotAt t = s.slotAt t ∨ slotMoves (s.slotAt t) (u.slotAt t)

namespace SlotsForward

theorem of_slots_eq (h : u.slots = s.slots) : SlotsForward s u := fun t => .inl (by rw [State.slotAt, State.slotAt, h])

/-- The moves speak of `SLOT` alone. -/
theorem congr {s' u' : State} (h : SlotsForward s' u') (hs : s'.slots = s.slots) (hu : u.slots = u'.slots) :
    SlotsForward s u := by
  simpa only [SlotsForward, State.slotAt, hs, hu] using h

theorem setSlot {t : Ticket} {v : SlotState} (h : slotMoves (s.slotAt t) v) : SlotsForward s (s.setSlot t v) := by
  intro t'
  rw [State.slotAt_setSlot]
  split
  · next ht => exact .inr (ht ▸ h)
  · exact .inl rfl

/-- The slot of a ticket that holds a mark is `Waiting`, and gets its result as the mark is freed. -/
theorem settle (hp : PoolInv s) {m : Mark} {t : Ticket} (h : s.poolAt m = some t) {v : SlotState}
    (hv : (∃ r, v = .done r) ∨ (∃ e, v = .failed e)) : SlotsForward s ((s.setPool m none).setSlot t v) := by
  have hwait : s.slotAt t = .waiting := (hp.waiting t).2 ⟨m, h⟩
  have hmove : slotMoves (s.slotAt t) v := by rw [hwait]; exact hv
  exact setSlot (s := s) hmove

/-- A reservation gives out a ticket that has not been used (R30). -/
theorem reserve (hp : PoolInv s) (m : Mark) : SlotsForward s (s.reserve m) := by
  have hmove : slotMoves (s.slotAt s.nextTicket) .waiting := by rw [(hp.unused s.nextTicket).2 le_rfl]; rfl
  exact setSlot (s := s) hmove

theorem releaseOp (hp : PoolInv s) (m : Mark) (resp : Bytes) : SlotsForward s (releaseOp m resp s) := by
  rcases releaseOp_cases m resp s with ⟨_, _, h⟩ | ⟨t, ht, _, h⟩ <;> rw [h]
  · exact of_slots_eq rfl
  · exact settle hp ht (.inl ⟨_, rfl⟩)

theorem abandonOp (hp : PoolInv s) (m : Mark) (t : Ticket) (e : Err) : SlotsForward s (abandonOp m t e s) := by
  rcases abandonOp_cases m t e s with ⟨ht, h⟩ | ⟨_, h⟩ <;> rw [h]
  · exact settle hp ht (.inr ⟨_, rfl⟩)
  · exact of_slots_eq rfl

theorem awaitOp {t : Ticket} {s' : State} {x : Except Err Bytes} (h : awaitOp t s = some (s', x)) :
    SlotsForward s s' := by
  rcases awaitOp_cases t s with ⟨_, h'⟩ | ⟨_, h'⟩ | ⟨b, hd, h'⟩ | ⟨e, hf, h'⟩ <;> rw [h'] at h <;> cases h
  · exact of_slots_eq rfl
  · exact setSlot (by rw [hd]; rfl)
  · exact setSlot (by rw [hf]; rfl)

theorem takeOp {nmax : Nat} {s' : State} {x : Except Err Bytes} (h : takeOp nmax s = some (s', x)) :
    SlotsForward s s' := by
  rcases takeOp_cases nmax s with ⟨_, _, h'⟩ | ⟨r, _, _, h'⟩ | ⟨_, h'⟩ <;> rw [h'] at h <;> cases h
  · exact of_slots_eq rfl
  · exact of_slots_eq rfl

theorem routeRx (p : Bytes) (s : State) : SlotsForward s (routeRx p s) := by
  rcases routeRx_cases p s with ⟨e, _, h⟩ | ⟨r, _, _, h⟩ | ⟨r, n, _, _, _, h⟩ <;> rw [h] <;> exact of_slots_eq rfl

theorem startCall (hp : PoolInv s) (op : Call) : SlotsForward s (startCall op s) := by
  rcases startCall_cases op s with ⟨e, h⟩ | ⟨m, _, _, _, h⟩ <;> rw [h]
  · exact of_slots_eq rfl
  · exact reserve hp m

theorem sendPhase (p : Bytes) (op : Call) (m : Mark) (t : Ticket) (s : State) :
    SlotsForward s (sendPhase p op m t s) := by
  rcases sendPhase_cases p op m t s with ⟨f, _, _, h⟩ | ⟨e, _, _, h⟩ | ⟨_, h⟩ <;> rw [h] <;> exact of_slots_eq rfl

/-- The final ABANDON of a call that has its result finds no mark to free, so its slot moves once (R298). -/
theorem waitPhase (hp : PoolInv s) (c : CallerId) (op : Call) (m : Mark) (t : Ticket) :
    SlotsForward s (waitPhase c op m t s) := by
  rcases waitPhase_cases c op m t s with ⟨_, h⟩ | ⟨s', x, ha, h⟩ <;> rw [h]
  · exact of_slots_eq rfl
  · rw [abandonOp_of_not_held (hp.not_held_of_awaitOp ha m)]
    exact (awaitOp ha).congr rfl rfl

theorem awaitPhase (c : CallerId) (t : Ticket) (s : State) : SlotsForward s (awaitPhase c t s) := by
  rcases awaitPhase_cases c t s with ⟨_, h⟩ | ⟨s', x, y, ha, h⟩ <;> rw [h]
  · exact of_slots_eq rfl
  · exact (awaitOp ha).congr rfl rfl

theorem takePhase (c : CallerId) (nmax : Nat) (s : State) : SlotsForward s (takePhase c nmax s) := by
  rcases takePhase_cases c nmax s with h | ⟨s', x, y, ht, h⟩ <;> rw [h]
  · exact of_slots_eq rfl
  · exact (takeOp ht).congr rfl rfl

theorem ingest (ch : Bytes) (s : State) : SlotsForward s (ingest ch s) := by
  unfold Machine.ingest
  split <;> exact of_slots_eq rfl

theorem rxEnd (r : RxEndReason) (s : State) : SlotsForward s (rxEnd r s) := by
  unfold Machine.rxEnd
  split <;> exact of_slots_eq rfl

/-- FINALIZE fails the slots of the reserved marks and no other (R176). -/
theorem finalize (hp : PoolInv s) : SlotsForward s (finalize s) := by
  rcases finalize_cases s with h | ⟨r, _, _, h⟩ <;> rw [h]
  · exact of_slots_eq rfl
  · obtain ⟨-, -, hheld, hother, -⟩ := forceReleaseAll_spec (.transportClosed r)
      { s with diag := s.diag ++ leftoverEvents s, syncbuf := [], txq := [] }
    intro t
    by_cases ht : ∃ m : Mark, m ≠ 0#8 ∧ s.poolAt m = some t
    · have hfailed := hheld t ht
      obtain ⟨m, _, hm⟩ := ht
      refine .inr ?_
      rw [(hp.waiting t).2 ⟨m, hm⟩]
      exact .inr ⟨_, hfailed⟩
    · exact .inl (hother t ht)

theorem txSend (o : WriteOutcome) (s : State) : SlotsForward s (txSend o s) := by
  rcases txSend_cases o s with h | ⟨t, f, rest, _, _, _, h⟩ | ⟨t, f, rest, j, _, _, _, _, h⟩ <;> rw [h] <;>
    exact of_slots_eq rfl

theorem timeoutStep (hp : PoolInv s) (c : CallerId) : SlotsForward s (timeoutStep c s) := by
  rcases timeoutStep_cases c s with h | ⟨op, m, t, _, _, _, h⟩ <;> rw [h]
  · exact of_slots_eq rfl
  · have hp' : PoolInv { s with txq := s.txq.filter (fun e => e.1 != t) } :=
      hp.setTxq_subset (List.filter_subset_self _)
    exact (abandonOp hp' m t .timeout).congr rfl rfl

theorem execEffect (hp : PoolInv s) (h : ExecEffect s u) : SlotsForward s u := by
  cases h with
  | nothing => exact of_slots_eq rfl
  | report e => exact of_slots_eq rfl
  | respond m p => exact releaseOp hp m p
  | receive p => exact routeRx p s
  | send p op m t _ => exact sendPhase p op m t s
  | answer x => exact of_slots_eq rfl
  | acquire m _ _ => exact reserve hp m
  | release m resp x => exact releaseOp hp m resp
  | abandon m t e k x => exact abandonOp hp m t e
  | await t s' r x ha => exact (awaitOp ha).congr rfl rfl
  | awaiting t _ => exact of_slots_eq rfl
  | start op => exact startCall hp op
  | read nmax s' r x ht => exact (takeOp ht).congr rfl rfl
  | reading nmax => exact of_slots_eq rfl
  | close _ => exact of_slots_eq rfl

theorem stepEffect (hp : PoolInv s) {x : Input} (hreset : ∀ cfg, x ≠ .reset cfg) (h : StepEffect s x u) :
    SlotsForward s u := by
  have hcaller : ∀ c, PoolInv { s with reqCaller := c } := fun c => hp.frame rfl rfl rfl rfl rfl
  cases h with
  | idle => exact of_slots_eq rfl
  | reset cfg _ => exact absurd rfl (hreset cfg)
  | request c bytes u _ he => exact (execEffect (hcaller c) he).congr rfl rfl
  | send c op m t u _ he => exact (execEffect (hcaller c) he).congr rfl rfl
  | wait c op m t _ => exact waitPhase hp c op m t
  | await c t _ => exact awaitPhase c t s
  | take c nmax _ => exact takePhase c nmax s
  | ingest ch => exact ingest ch s
  | rxEnd r => exact rxEnd r s
  | scan u _ he =>
    have hconsumed : PoolInv (scanConsume s) := hp.frame rfl rfl rfl rfl rfl
    exact (execEffect hconsumed he).congr rfl rfl
  | finalize => exact finalize hp
  | txSend o => exact txSend o s
  | timeout c => exact timeoutStep hp c

end SlotsForward

/-- The inputs that a step other than reset takes. -/
theorem ne_reset_of_takesReset {x : Input} {rest : List Input} (hin : s.inputs = x :: rest)
    (h : takesReset s = false) (cfg : Cfg) : x ≠ .reset cfg := by
  rintro rfl
  rw [takesReset, hin] at h
  cases h

/-- Settles O55: every effect of a step moves slots forward, the reset step aside. -/
theorem slotsMoveOnlyForward : Obligations.SlotsMoveOnlyForward := by
  intro s u t hp hreset hstep
  obtain ⟨_, rfl⟩ | ⟨x, rest, hin, heff⟩ := stepEffect_of_step hstep
  · exact .inl rfl
  · have hconsumed : PoolInv { s with inputs := rest } := hp.frame rfl rfl rfl rfl rfl
    exact SlotsForward.stepEffect hconsumed (ne_reset_of_takesReset hin hreset) heff t

/-! ## The phases that wait -/

theorem step_phase {c : CallerId} {rest : List Input} (hin : s.inputs = .phase c :: rest) :
    step s = (fetchPhase c { s with inputs := rest }).outcome :=
  step_of_input hin

theorem step_phase_of_wait {c : CallerId} {rest : List Input} {op : Call} {m : Mark} {t : Ticket}
    (hin : s.inputs = .phase c :: rest) (hcall : s.callAt c = .session .wait op m t) :
    step s = .next (waitPhase c op m t { s with inputs := rest }) := by
  have hcall' : State.callAt { s with inputs := rest } c = .session .wait op m t := hcall
  rw [step_phase hin, fetchPhase, hcall', Fetched.outcome]

theorem step_phase_of_awaiting {c : CallerId} {rest : List Input} {t : Ticket}
    (hin : s.inputs = .phase c :: rest) (hcall : s.callAt c = .awaiting t) :
    step s = .next (awaitPhase c t { s with inputs := rest }) := by
  have hcall' : State.callAt { s with inputs := rest } c = .awaiting t := hcall
  rw [step_phase hin, fetchPhase, hcall', Fetched.outcome]

theorem waitPhase_of_waiting {t : Ticket} (h : s.slotAt t = .waiting) (c : CallerId) (op : Call) (m : Mark) :
    waitPhase c op m t s = s := by
  rw [waitPhase, awaitOp_of_waiting h]

theorem waitPhase_of_result {t : Ticket} {s' : State} {x : Except Err Bytes} {m : Mark}
    (h : awaitOp t s = some (s', x)) (hm : s'.poolAt m ≠ some t) (c : CallerId) (op : Call) :
    waitPhase c op m t s = (s'.setCall c .idle).complete c (finishCall op x) := by
  simp only [waitPhase, h, abandonOp_of_not_held hm]

theorem awaitPhase_of_waiting {t : Ticket} (h : s.slotAt t = .waiting) (c : CallerId) : awaitPhase c t s = s := by
  rw [awaitPhase, awaitOp_of_waiting h]

theorem awaitPhase_of_done {t : Ticket} {b : Bytes} (h : s.slotAt t = .done b) (c : CallerId) :
    awaitPhase c t s = ((s.setSlot t .retired).setCall c .idle).complete c (.ok (.bytes b)) := by
  rw [awaitPhase, awaitOp_of_done h]

theorem awaitPhase_of_failed {t : Ticket} {e : Err} (h : s.slotAt t = .failed e) (c : CallerId) :
    awaitPhase c t s = ((s.setSlot t .retired).setCall c .idle).complete c (.err e) := by
  rw [awaitPhase, awaitOp_of_failed h]

/-! ## The statements on the phases -/

/-- Settles O39: the slot decides between the hold and the completion, and a ticket that holds no mark has nothing to
abandon. -/
theorem sessionCallsFinish : Obligations.SessionCallsFinish := by
  intro s c rest op m t hin hcall
  rw [step_phase_of_wait hin hcall]
  refine ⟨fun hwait => ?_, ?_⟩
  · rw [waitPhase_of_waiting]
    exact hwait
  intro v x hresult hslot hm
  have htake : awaitOp t { s with inputs := rest } = some (State.setSlot { s with inputs := rest } t .retired, x) := by
    obtain ⟨b, rfl, rfl⟩ | ⟨e, rfl, rfl⟩ := hresult
    · exact awaitOp_of_done hslot
    · exact awaitOp_of_failed hslot
  refine ⟨_, congrArg _ (waitPhase_of_result htake hm c op), rfl, ?_, ?_⟩
  · exact fun k => State.slotAt_setSlot { s with inputs := rest } t k .retired
  · exact fun k => State.callAt_setCall { s with inputs := rest } c k .idle

/-- Settles O41: a call that ends has taken its result, so by R36 (c) its ticket holds no mark. -/
theorem finishedCallsHoldNoMark : Obligations.FinishedCallsHoldNoMark := by
  intro s u c rest op m t hp hin hcall hstep hidle
  rw [step_phase_of_wait hin hcall] at hstep
  cases hstep
  have hp' : PoolInv { s with inputs := rest } := hp.frame rfl rfl rfl rfl rfl
  obtain ⟨_, h⟩ | ⟨s', x, ha, -⟩ := waitPhase_cases c op m t { s with inputs := rest }
  · rw [h] at hidle
    cases hcall.symm.trans hidle
  · have hfree := hp'.not_held_of_awaitOp ha
    rw [waitPhase_of_result ha (hfree m)]
    have hpool : s'.pool = s.pool := (awaitOp_pool ha).trans rfl
    exact ⟨hpool, hfree⟩

/-- Settles O24: the five answers by the state of the slot, two of them at the end of a hold. -/
theorem awaitTakesTheResultOnce : Obligations.AwaitTakesTheResultOnce := by
  refine ⟨fun s t h => ?_, fun s t h => ?_, fun s t v x hresult hslot => ?_, fun s c t rest hin hcall hwait => ?_,
    fun s c t rest v x hresult hin hcall hslot => ?_⟩
  · exact h.elim exec_awaitSlot_of_unused exec_awaitSlot_of_retired
  · exact ⟨_, exec_awaitSlot_of_waiting h, rfl, fun k => s.callAt_setCall s.reqCaller k (.awaiting t)⟩
  · have hexec : exec (.awaitSlot t) s = .next (answered (s.setSlot t .retired) x) := by
      obtain ⟨b, rfl, rfl⟩ | ⟨e, rfl, rfl⟩ := hresult
      · exact exec_awaitSlot_of_done hslot
      · exact exec_awaitSlot_of_failed hslot
    exact ⟨_, hexec, rfl, fun k => s.slotAt_setSlot t k .retired⟩
  · rw [step_phase_of_awaiting hin hcall]
    rw [awaitPhase_of_waiting]
    exact hwait
  · have hphase : awaitPhase c t { s with inputs := rest } =
        ((State.setSlot { s with inputs := rest } t .retired).setCall c .idle).complete c x := by
      obtain ⟨b, rfl, rfl⟩ | ⟨e, rfl, rfl⟩ := hresult
      · exact awaitPhase_of_done (s := { s with inputs := rest }) hslot c
      · exact awaitPhase_of_failed (s := { s with inputs := rest }) hslot c
    rw [step_phase_of_awaiting hin hcall, hphase]
    refine ⟨_, rfl, rfl, ?_, ?_⟩
    · exact fun k => State.slotAt_setSlot { s with inputs := rest } t k .retired
    · exact fun k => State.callAt_setCall { s with inputs := rest } c k .idle

end Sys2Proof.Machine
end

section
/-! The synchronizer as an interface (41_synchronizer.md R140, R143, R151; 20_memory.md R67). First the parts of the
buffer that an emitted frame shows, then noise in front of a buffer and more bytes behind it, then a false delimiter, each
with its statement. -/

namespace Sys2Proof.Machine

/-! ## What is consumed and emitted -/

/-- The answer `r` on `buf` emits `f`: the bytes consumed end with `f`, which begins with the delimiter and has the size
of its length field (R140). -/
structure Emits (buf : Bytes) (r : SyncResult) (f : Bytes) : Prop where
  split : ∃ g ext, buf = g ++ (f ++ ext) ∧ r.consumed = g.length + f.length
  note : r.note = none
  head : f.head? = some 0x7E#8
  size : f.length = be16 (byteAt f 1) (byteAt f 2) + 4

/-- A whole candidate, emitted. -/
theorem emits_whole (g : Bytes) {p : Bytes} {hi lo : Byte} (hp : p.length = be16 hi lo) (c : Byte) (ext : Bytes) :
    Emits (g ++ 0x7E#8 :: hi :: lo :: (p ++ c :: ext))
      ⟨g.length + (p.length + 4), some (0x7E#8 :: hi :: lo :: (p ++ [c])), none⟩
      (0x7E#8 :: hi :: lo :: (p ++ [c])) where
  split := ⟨g, ext, by simp, by simp⟩
  note := rfl
  head := rfl
  size := by simp [hp]

theorem syncStepOp_emits {mode : SyncMode} {buf f : Bytes} {atEnd : Bool}
    (h : (syncStepOp mode buf atEnd).frame = some f) : Emits buf (syncStepOp mode buf atEnd) f := by
  cases firstCandidate buf with
  | absent habs => simp [syncStepOp_absent habs] at h
  | incomplete hg hinc =>
    cases mode with
    | literal => simp [syncStepOp_literal_incomplete hg hinc] at h
    | hunt => cases atEnd <;> simp [syncStepOp_hunt_incomplete hg hinc] at h
  | @whole g p ext hi lo c hg hp =>
    cases mode with
    | literal =>
      rw [syncStepOp_literal_whole hg hp] at h ⊢
      cases h
      exact emits_whole g hp c ext
    | hunt =>
      rw [syncStepOp_hunt_whole hg hp] at h ⊢
      split at h
      · next hc =>
        cases h
        rw [if_pos hc]
        exact emits_whole g hp c ext
      · cases h

theorem syncStepOp_consumed_le (mode : SyncMode) (buf : Bytes) (atEnd : Bool) :
    (syncStepOp mode buf atEnd).consumed ≤ buf.length := by
  cases firstCandidate buf with
  | absent habs => rw [syncStepOp_absent habs]
  | incomplete hg hinc =>
    cases mode with
    | literal => simp [syncStepOp_literal_incomplete hg hinc]
    | hunt => cases atEnd <;> simp [syncStepOp_hunt_incomplete hg hinc]
  | whole hg hp =>
    cases mode with
    | literal =>
      simp only [syncStepOp_literal_whole hg hp, List.length_append, List.length_cons]
      omega
    | hunt =>
      rw [syncStepOp_hunt_whole hg hp]
      split <;> simp only [List.length_append, List.length_cons] <;> omega

/-- Settles O12: an emitted frame is a part of the buffer that ends where the call has consumed to. -/
theorem synchronizerResultShape : Obligations.SynchronizerResultShape := by
  rintro mode buf atEnd r rfl
  refine ⟨syncStepOp_consumed_le mode buf atEnd, fun f hf => ?_⟩
  obtain ⟨⟨g, ext, hbuf, hconsumed⟩, -, hhead, hsize⟩ := syncStepOp_emits hf
  rw [hconsumed]
  refine ⟨Nat.le_add_left _ _, ?_, hhead, hsize⟩
  rw [Nat.add_sub_cancel, hbuf, slice_append_add, List.take_left]

/-! ## Noise in front and bytes behind -/

/-- Noise in front of a buffer is consumed on top of what the call on the buffer consumes. -/
theorem syncStepOp_noise_append {g : Bytes} (hg : 0x7E#8 ∉ g) (mode : SyncMode) (buf : Bytes) (atEnd : Bool) :
    syncStepOp mode (g ++ buf) atEnd = ⟨g.length + (syncStepOp mode buf atEnd).consumed,
      (syncStepOp mode buf atEnd).frame, (syncStepOp mode buf atEnd).note⟩ := by
  have hnoise {g' : Bytes} (hg' : 0x7E#8 ∉ g') : 0x7E#8 ∉ g ++ g' := by simp [hg, hg']
  cases firstCandidate buf with
  | absent habs => rw [syncStepOp_absent (hnoise habs), syncStepOp_absent habs, List.length_append]
  | incomplete hg' hinc =>
    rw [← List.append_assoc]
    cases mode with
    | literal =>
      rw [syncStepOp_literal_incomplete (hnoise hg') hinc, syncStepOp_literal_incomplete hg' hinc, List.length_append]
    | hunt =>
      rw [syncStepOp_hunt_incomplete (hnoise hg') hinc, syncStepOp_hunt_incomplete hg' hinc, List.length_append]
      cases atEnd <;> rfl
  | whole hg' hp =>
    rw [← List.append_assoc]
    cases mode with
    | literal =>
      rw [syncStepOp_literal_whole (hnoise hg') hp, syncStepOp_literal_whole hg' hp, List.length_append, Nat.add_assoc]
    | hunt =>
      rw [syncStepOp_hunt_whole (hnoise hg') hp, syncStepOp_hunt_whole hg' hp, List.length_append]
      split <;> simp only [Nat.add_assoc]

/-- What follows a whole candidate does not change what is said of it. -/
theorem syncStepOp_whole_append {g p : Bytes} {hi lo : Byte} (hg : 0x7E#8 ∉ g) (hp : p.length = be16 hi lo) (c : Byte)
    (ext more : Bytes) (mode : SyncMode) (atEnd : Bool) :
    syncStepOp mode (g ++ 0x7E#8 :: hi :: lo :: (p ++ c :: ext) ++ more) atEnd =
      syncStepOp mode (g ++ 0x7E#8 :: hi :: lo :: (p ++ c :: ext)) atEnd := by
  have hbuf : g ++ 0x7E#8 :: hi :: lo :: (p ++ c :: ext) ++ more =
      g ++ 0x7E#8 :: hi :: lo :: (p ++ c :: (ext ++ more)) := by simp
  rw [hbuf]
  cases mode with
  | literal => rw [syncStepOp_literal_whole hg hp, syncStepOp_literal_whole hg hp]
  | hunt => rw [syncStepOp_hunt_whole hg hp, syncStepOp_hunt_whole hg hp]

/-- Before the end of the stream the call waits exactly where there is no whole candidate, and then it has consumed the
noise before the first delimiter. -/
theorem syncStepOp_waits_cases (mode : SyncMode) (buf : Bytes) :
    (∃ g rest, buf = g ++ rest ∧ 0x7E#8 ∉ g ∧ syncStepOp mode buf false = ⟨g.length, none, none⟩) ∨
    (((syncStepOp mode buf false).frame ≠ none ∨ (syncStepOp mode buf false).note ≠ none) ∧
      ∀ more, syncStepOp mode (buf ++ more) false = syncStepOp mode buf false) := by
  cases firstCandidate buf with
  | absent habs => exact .inl ⟨buf, [], by simp, habs, syncStepOp_absent habs mode false⟩
  | incomplete hg hinc =>
    refine .inl ⟨_, _, rfl, hg, ?_⟩
    cases mode with
    | literal => exact syncStepOp_literal_incomplete hg hinc false
    | hunt => exact syncStepOp_hunt_incomplete hg hinc false
  | whole hg hp =>
    refine .inr ⟨?_, fun more => syncStepOp_whole_append hg hp _ _ more mode false⟩
    cases mode with
    | literal => simp [syncStepOp_literal_whole hg hp]
    | hunt =>
      rw [syncStepOp_hunt_whole hg hp]
      split <;> simp

/-- Settles O16: bytes behind a whole candidate change nothing, and a call that waits has consumed noise alone. -/
theorem chunkBoundariesDoNotMatter : Obligations.ChunkBoundariesDoNotMatter := by
  constructor
  · rintro mode buf ext r rfl hr
    obtain ⟨g, rest, -, -, hwait⟩ | ⟨-, hstable⟩ := syncStepOp_waits_cases mode buf
    · simp [hwait] at hr
    · exact hstable ext
  · rintro mode buf ext r r' rfl hframe hnote rfl
    obtain ⟨g, rest, rfl, hg, hwait⟩ | ⟨hemits, -⟩ := syncStepOp_waits_cases mode buf
    · rw [hwait, List.drop_left, List.append_assoc, syncStepOp_noise_append hg]
    · simp [hframe, hnote] at hemits

/-! ## A false delimiter -/

/-- The three answers of HUNT at the first delimiter: a frame, a wait, or a false start that costs the delimiter. -/
theorem syncStepOp_hunt_delimiter_cases {g : Bytes} (hg : 0x7E#8 ∉ g) (r : Bytes) (atEnd : Bool) :
    (syncStepOp .hunt (g ++ 0x7E#8 :: r) atEnd).frame ≠ none ∨
    (atEnd = false ∧ (syncStepOp .hunt (g ++ 0x7E#8 :: r) atEnd).note = none) ∨
    (∃ n, syncStepOp .hunt (g ++ 0x7E#8 :: r) atEnd = ⟨g.length + 1, none, some n⟩) := by
  rw [syncStepOp_hunt_delimiter hg]
  split
  · cases atEnd with
    | false => exact .inr (.inl ⟨rfl, rfl⟩)
    | true => exact .inr (.inr ⟨_, rfl⟩)
  · split
    · exact .inl (by simp)
    · exact .inr (.inr ⟨_, rfl⟩)

/-- Settles O18: a false start leaves what follows the delimiter, where the frame is the first candidate. -/
theorem huntModeResynchronizes : Obligations.HuntModeResynchronizes := by
  rintro g m p f ext atEnd r hg hm hf rfl hframe
  obtain ⟨hp, rfl⟩ := encodeFrameOp_eq_ok_iff.1 hf
  obtain hemits | ⟨hend, hnote⟩ | ⟨n, hfalse⟩ := syncStepOp_hunt_delimiter_cases hg (m ++ wireFrame p ++ ext) atEnd
  · exact absurd hframe hemits
  · refine ⟨fun htrue => ?_, fun h => absurd hnote h⟩
    cases hend.symm.trans htrue
  · rw [hfalse]
    refine ⟨fun _ => by simp, fun _ => ⟨rfl, ?_⟩⟩
    have hrest : (g ++ 0x7E#8 :: (m ++ wireFrame p ++ ext)).drop (g.length + 1) = m ++ (wireFrame p ++ ext) := by
      simp
    rw [hrest, syncStepOp_wireFrame hm hp]

end Sys2Proof.Machine
end

section
/-! Steps that run instructions (00_scope.md section 4; 41_synchronizer.md R146) and the phases of the session sequencer
(46_session.md R270 to R287). First what a step comes to for each input that presents an instruction, SCAN among them,
then START and SEND of a session call, then READ, each with its statements. -/

namespace Sys2Proof.Machine

variable {s : State}

/-! ## Steps that run instructions -/

/-- Settles O6: a step with no input left changes nothing, and any other has one of the effects of `StepEffect`. -/
theorem everyStepHasANextState : Obligations.EveryStepHasANextState := by
  intro s
  cases hin : s.inputs with
  | nil => exact ⟨s, step_of_no_inputs hin⟩
  | cons x rest =>
    obtain ⟨u, hu, _⟩ := step_effect hin
    exact ⟨u, hu⟩

theorem step_request_of_decoded {c : CallerId} {bytes : Bytes} {rest : List Input} {i : Instr}
    (hin : s.inputs = .request c bytes :: rest) (hidle : s.callAt c = .idle) (hi : decode .hostRequest bytes = .ok i) :
    step s = exec i { s with inputs := rest, reqCaller := c } := by
  have hidle' : State.callAt { s with inputs := rest } c = .idle := hidle
  rw [step_of_input hin, fetchInput, fetchRequest, if_pos hidle', hi]
  rfl

theorem step_phase_of_send {c : CallerId} {rest : List Input} {op : Call} {m : Mark} {t : Ticket} {i : Instr}
    (hin : s.inputs = .phase c :: rest) (hcall : s.callAt c = .session .send op m t)
    (hi : decode .sent (callPayload s.cfg op m) = .ok i) :
    step s = exec i { s with inputs := rest, reqCaller := c } := by
  have hcall' : State.callAt { s with inputs := rest } c = .session .send op m t := hcall
  have hi' : decode .sent (callPayload (State.cfg { s with inputs := rest }) op m) = .ok i := hi
  rw [step_phase hin, fetchPhase, hcall']
  simp only [fetchSend, hi', Fetched.outcome]

/-! ## SCAN -/

theorem step_scan {rest : List Input} (hin : s.inputs = .scan :: rest) :
    step s = (fetchScan { s with inputs := rest }).outcome :=
  step_of_input hin

theorem scanEnabled_eq_true_iff : scanEnabled s = true ↔
    isClosed s.sess = false ∧ (0 < (scanResult s).consumed ∨ (scanResult s).frame ≠ none) := by
  simp [scanEnabled, Option.isSome_iff_ne_none]

theorem SyncResult.noise_eq (r : SyncResult) : r.noise = r.consumed - (r.frame.getD []).length := by
  cases hf : r.frame <;> simp [SyncResult.noise, hf]

/-- The events of a SCAN as R146 lists them. -/
theorem noiseEvents_eq (r : SyncResult) : noiseEvents r =
    (if 0 < r.consumed - (r.frame.getD []).length then [.noiseDiscarded (r.consumed - (r.frame.getD []).length)]
      else []) ++ (r.note.map Event.falseStart).toList := by
  rw [noiseEvents, SyncResult.noise_eq]
  cases r.note <;> rfl

theorem scanConsume_eq (s : State) : scanConsume s = { s with
    syncbuf := s.syncbuf.drop (scanResult s).consumed
    diag := s.diag ++ (if 0 < (scanResult s).consumed - ((scanResult s).frame.getD []).length then
        [.noiseDiscarded ((scanResult s).consumed - ((scanResult s).frame.getD []).length)] else []) ++
      ((scanResult s).note.map Event.falseStart).toList } := by
  rw [scanConsume, noiseEvents_eq, List.append_assoc]

theorem fetchScan_of_disabled (h : scanEnabled s = false) : fetchScan s = .done s := by
  rw [fetchScan, h]
  rfl

theorem fetchScan_of_no_frame (h : scanEnabled s = true) (hf : (scanResult s).frame = none) :
    fetchScan s = .done (scanConsume s) := by
  simp only [fetchScan, if_pos h, hf]

theorem fetchScan_of_bad_frame {g : Bytes} {e : Err} (h : isClosed s.sess = false) (hf : (scanResult s).frame = some g)
    (hg : decodeFrameOp g = .error e) : fetchScan s = .done ((scanConsume s).emit (.badFrame e)) := by
  have hen : scanEnabled s = true := scanEnabled_eq_true_iff.2 ⟨h, .inr (by simp [hf])⟩
  simp only [fetchScan, if_pos hen, hf, hg]

theorem fetchScan_of_frame {g p : Bytes} (h : isClosed s.sess = false) (hf : (scanResult s).frame = some g)
    (hg : decodeFrameOp g = .ok p) : fetchScan s = fetchPayload p (scanConsume s) := by
  have hen : scanEnabled s = true := scanEnabled_eq_true_iff.2 ⟨h, .inr (by simp [hf])⟩
  simp only [fetchScan, if_pos hen, hf, hg]

/-- A validated payload goes to the router, as an instruction or not (R250). -/
theorem fetchPayload_outcome (p : Bytes) (s : State) : (fetchPayload p s).outcome = .next (dispatchPayload p s) := by
  unfold fetchPayload
  split
  · next i hi => exact routerAgreesWithTheFrames p i s hi
  · rfl

/-- Settles O5: the three fetches; the frame of the third comes with no note, so noise is all that is reported. -/
theorem stepRunsTheDecodedInstruction : Obligations.StepRunsTheDecodedInstruction := by
  refine ⟨fun s c bytes rest i => step_request_of_decoded, fun s c rest op m t i => step_phase_of_send, ?_⟩
  rintro s rest r g p i hin hclosed rfl hframe hg hi
  have hnote := (syncStepOp_emits hframe).note
  have hfetch : fetchScan { s with inputs := rest } = fetchPayload p (scanConsume { s with inputs := rest }) :=
    fetchScan_of_frame hclosed hframe hg
  rw [step_scan hin, hfetch, fetchPayload, hi, scanConsume_eq]
  simp only [Fetched.outcome, scanResult, hframe, hnote, Option.getD_some, Option.map_none, Option.toList_none,
    List.append_nil]

/-- Settles O45: whether SCAN is enabled, whether there is a frame, and whether DECODE_FRAME accepts it. -/
theorem scanDispatchesTheFrame : Obligations.ScanDispatchesTheFrame := by
  rintro s s1 rest r hin rfl rfl
  rw [step_scan hin]
  refine ⟨fun hdisabled => ?_, fun hclosed hpos hframe => ?_, fun g e hclosed hframe hg => ?_,
    fun g p hclosed hframe hg => ?_⟩
  · have hen : scanEnabled { s with inputs := rest } = false := by
      rw [Bool.eq_false_iff, Ne, scanEnabled_eq_true_iff]
      rintro ⟨hopen, hwork⟩
      obtain hclosed | ⟨hzero, hnone⟩ := hdisabled
      · cases hclosed.symm.trans hopen
      · exact hwork.elim (fun hpos => absurd hzero hpos.ne') fun hframe => hframe hnone
    rw [fetchScan_of_disabled hen, Fetched.outcome]
  · have hen : scanEnabled { s with inputs := rest } = true := scanEnabled_eq_true_iff.2 ⟨hclosed, .inl hpos⟩
    rw [fetchScan_of_no_frame hen hframe, Fetched.outcome, scanConsume_eq]
    rfl
  · rw [fetchScan_of_bad_frame (s := { s with inputs := rest }) hclosed hframe hg, Fetched.outcome, scanConsume_eq]
    rfl
  · rw [fetchScan_of_frame (s := { s with inputs := rest }) hclosed hframe hg, fetchPayload_outcome, scanConsume_eq]
    rfl

/-! ## START -/

theorem startCall_of_ended {r : Reason} (h : s.sess.ended = some r) (op : Call) :
    startCall op s = answered s (.err (.transportClosed r)) := by
  rw [startCall, h]
  rfl

theorem startCall_of_allReserved {op : Call} (hs : s.sess = .isOpen) (hsize : callSize op ≤ callLimit op)
    (h : allReserved s) : startCall op s = answered s (.err .noMarksAvailable) := by
  simp only [startCall, hs, SessionStatus.ended, if_neg (Nat.not_lt.2 hsize), acquireOp,
    State.freeMark_eq_none_iff.2 h]
  rfl

theorem startCall_of_lowestFree {op : Call} {m : Mark} (hs : s.sess = .isOpen) (hsize : callSize op ≤ callLimit op)
    (h : lowestFree s m) :
    startCall op s = (s.reserve m).setCall s.reqCaller (.session .send op m s.nextTicket) := by
  simp only [startCall, hs, SessionStatus.ended, if_neg (Nat.not_lt.2 hsize), acquireOp,
    State.freeMark_eq_some_iff.2 h]

/-- A call is started by the request of its kind, with the limit of R205. -/
theorem exec_eq_startCall {i : Instr} {op : Call} {size limit : Nat}
    (h : (∃ data, i = .write data ∧ op = .write data ∧ size = data.length ∧ limit = 65521) ∨
      (∃ mn param queued, i = .atCommand mn param queued ∧ op = .atCommand mn param queued ∧
        size = (param.getD []).length ∧ limit = 65531) ∨
      (∃ dest options mn param, i = .remoteAtCommand dest options mn param ∧
        op = .remoteAtCommand dest options mn param ∧ size = (param.getD []).length ∧ limit = 65520)) (s : State) :
    exec i s = .next (startCall op s) ∧ size = callSize op ∧ limit = callLimit op := by
  obtain ⟨data, rfl, rfl, rfl, rfl⟩ | ⟨mn, param, queued, rfl, rfl, rfl, rfl⟩ |
    ⟨dest, options, mn, param, rfl, rfl, rfl, rfl⟩ := h
  · exact ⟨rfl, rfl, rfl⟩
  · exact ⟨rfl, rfl, rfl⟩
  · exact ⟨rfl, rfl, rfl⟩

/-- Settles O38: the three checks of START in order, and the reads of the pool, the slots and the calls after it. -/
theorem sessionCallsStart : Obligations.SessionCallsStart := by
  intro i op size limit hi s
  obtain ⟨hexec, rfl, rfl⟩ := exec_eq_startCall hi s
  rw [hexec]
  refine ⟨fun r hr => ?_, fun hs hover => ?_, fun hs hfits hfull => ?_, fun m hs hfits hlow => ?_⟩
  · rw [startCall_of_ended hr]
  · rw [startCall_of_oversize hs hover]
  · rw [startCall_of_allReserved hs hfits hfull]
  · rw [startCall_of_lowestFree hs hfits hlow]
    exact ⟨_, rfl, rfl, s.reserve_poolAt m, s.reserve_slotAt m,
      fun k => (s.reserve m).callAt_setCall s.reqCaller k (.session .send op m s.nextTicket)⟩

/-! ## SEND -/

theorem sendPayload_of_call {p : Bytes} {op : Call} {m : Mark} {t : Ticket}
    (hcall : s.callAt s.reqCaller = .session .send op m t) (hp : callPayload s.cfg op m = p) :
    sendPayload p s = sendPhase p op m t s := by
  simp only [sendPayload, hcall, if_pos hp]

theorem sendPhase_of_open {p f : Bytes} (hs : s.sess = .isOpen) (hf : encodeFrameOp p = .ok f) (op : Call) (m : Mark)
    (t : Ticket) : sendPhase p op m t s =
      { s.setCall s.reqCaller (.session .wait op m t) with txq := s.txq ++ [(t, f)] } := by
  simp only [sendPhase, if_pos hs, hf]

theorem sendPhase_of_not_open (hs : s.sess ≠ .isOpen) (p : Bytes) (op : Call) (m : Mark) (t : Ticket) :
    sendPhase p op m t s = s.setCall s.reqCaller (.session .wait op m t) :=
  if_neg hs

/-- A frame of the type and the fields of a call is the payload of that call (R270, R275, R280). -/
theorem exec_eq_sendPhase {i : Instr} {op : Call} {m : Mark} {t : Ticket}
    (h : (∃ mn param, i = .atCommandFrame .sent m mn (param.getD []) ∧ op = .atCommand mn param false) ∨
      (∃ mn param, i = .queuedAtCommandFrame .sent m mn (param.getD []) ∧ op = .atCommand mn param true) ∨
      (∃ data, i = .txRequestFrame .sent m s.cfg.dest64 0xFFFE#16 s.cfg.txRadius s.cfg.txOptions data ∧
        op = .write data) ∨
      (∃ dest options mn param, i = .remoteAtCommandFrame .sent m dest 0xFFFE#16 options mn (param.getD []) ∧
        op = .remoteAtCommand dest options mn param)) (hcall : s.callAt s.reqCaller = .session .send op m t) :
    exec i s = .next (sendPhase (encode i).2 op m t s) := by
  obtain ⟨mn, param, rfl, rfl⟩ | ⟨mn, param, rfl, rfl⟩ | ⟨data, rfl, rfl⟩ | ⟨dest, options, mn, param, rfl, rfl⟩ := h
  · exact congrArg _ (sendPayload_of_call hcall rfl)
  · exact congrArg _ (sendPayload_of_call hcall rfl)
  · exact congrArg _ (sendPayload_of_call hcall rfl)
  · exact congrArg _ (sendPayload_of_call hcall rfl)

/-- Settles O37: the frame is the payload of the acting caller's call, and `SESS` decides whether it is queued. -/
theorem sentFramesAreQueued : Obligations.SentFramesAreQueued := by
  intro s i op m t hi hcall
  rw [exec_eq_sendPhase hi hcall]
  refine ⟨fun f hs hf => ?_, fun hs => ?_⟩
  · rw [sendPhase_of_open hs hf]
    exact ⟨_, rfl, rfl, fun k => s.callAt_setCall s.reqCaller k (.session .wait op m t)⟩
  · rw [sendPhase_of_not_open hs]
    exact ⟨_, rfl, rfl, fun k => s.callAt_setCall s.reqCaller k (.session .wait op m t)⟩

/-! ## READ -/

theorem exec_read_zero (s : State) : exec (.read 0) s = .next (answered s (.ok (.bytes []))) := rfl

theorem exec_read (n : Nat) (s : State) : exec (.read n) s = execRead n s := rfl

theorem exec_read_of_held {n : Nat} (hn : n ≠ 0) (h : takeOp n s = none) :
    exec (.read n) s = .next (s.setCall s.reqCaller (.reading n)) := by
  simp only [exec_read, execRead, if_neg hn, h]

theorem exec_read_of_taken {n : Nat} {s' : State} {x : Except Err Bytes} (hn : n ≠ 0)
    (h : takeOp n s = some (s', x)) : exec (.read n) s = .next (s'.finishWith .bytes x) := by
  simp only [exec_read, execRead, if_neg hn, h]

theorem takeOp_of_buffered (h : s.rdbuf ≠ []) (n : Nat) :
    takeOp n s = some ({ s with rdbuf := s.rdbuf.drop n }, .ok (s.rdbuf.take n)) := by
  obtain ⟨b, rest, hb⟩ := List.exists_cons_of_ne_nil h
  simp only [takeOp, hb]

theorem takeOp_of_closed {r : Reason} (h : s.rdbuf = []) (hs : s.sess = .closed r) (n : Nat) :
    takeOp n s = some (s, .error (.transportClosed r)) := by
  simp only [takeOp, h, hs]

theorem takeOp_of_held (h : s.rdbuf = []) (hs : isClosed s.sess = false) (n : Nat) : takeOp n s = none := by
  cases hsess : s.sess with
  | closed r => rw [hsess] at hs; cases hs
  | _ => simp only [takeOp, h, hsess]

theorem step_phase_of_reading {c : CallerId} {rest : List Input} {n : Nat}
    (hin : s.inputs = .phase c :: rest) (hcall : s.callAt c = .reading n) :
    step s = .next (takePhase c n { s with inputs := rest }) := by
  have hcall' : State.callAt { s with inputs := rest } c = .reading n := hcall
  rw [step_phase hin, fetchPhase, hcall', Fetched.outcome]

/-- Settles O42: the four answers of TAKE, when it is presented and at the end of a hold. -/
theorem readTakesFromTheFront : Obligations.ReadTakesFromTheFront := by
  refine ⟨exec_read_zero, fun s n hn hbuf => ?_, fun s n r hn hbuf hs => ?_, fun s n hn hbuf hs => ?_,
    fun s c rest n hin hcall hbuf hs => ?_, fun s c rest n x hin hcall hx => ?_⟩
  · rw [exec_read_of_taken hn (takeOp_of_buffered hbuf n), State.finishWith_ok]
  · rw [exec_read_of_taken hn (takeOp_of_closed hbuf hs n), State.finishWith_error]
  · rw [exec_read_of_held hn (takeOp_of_held hbuf hs n)]
    exact ⟨_, rfl, rfl, fun k => s.callAt_setCall s.reqCaller k (.reading n)⟩
  · rw [step_phase_of_reading hin hcall, takePhase, takeOp_of_held]
    · exact hbuf
    · exact hs
  · rw [step_phase_of_reading hin hcall]
    refine ⟨_, rfl, ?_⟩
    obtain ⟨hbuf, rfl⟩ | ⟨r, hbuf, hs, rfl⟩ := hx
    · rw [takePhase, takeOp_of_buffered (s := { s with inputs := rest }) hbuf]
      exact ⟨rfl, fun k => s.callAt_setCall c k .idle⟩
    · rw [takePhase, takeOp_of_closed (s := { s with inputs := rest }) hbuf hs, hbuf, List.drop_nil, ← hbuf]
      exact ⟨rfl, fun k => s.callAt_setCall c k .idle⟩

end Sys2Proof.Machine
end

section
/-! The engines and the environment (41_synchronizer.md R145, R148; 42_tag_pool.md R176; 46_session.md R290, R293, R296)
and the response arms of the router (45_router.md R252 to R257). First each engine step by its enabling condition with its
statement, then the response arms with theirs. -/

namespace Sys2Proof.Machine

variable {s : State}

/-! ## INGEST and RX_END -/

theorem ingest_of_open (hs : s.sess = .isOpen) (ch : Bytes) : ingest ch s = { s with syncbuf := s.syncbuf ++ ch } := by
  by_cases hch : ch = []
  · rw [ingest, if_neg (fun h => h.2 hch), hch, List.append_nil]
  · rw [ingest, if_pos ⟨hs, hch⟩]

theorem ingest_of_not_open (hs : s.sess ≠ .isOpen) (ch : Bytes) : ingest ch s = s :=
  if_neg fun h => hs h.1

/-- Settles O44: an open session takes the chunk, the empty one to no effect. -/
theorem ingestAppendsTheChunk : Obligations.IngestAppendsTheChunk := by
  intro s ch rest hin
  have hstep : step s = .next (ingest ch { s with inputs := rest }) := step_of_input hin
  rw [hstep]
  exact ⟨fun hs => congrArg _ (ingest_of_open (s := { s with inputs := rest }) hs ch),
    fun hs => congrArg _ (ingest_of_not_open (s := { s with inputs := rest }) hs ch)⟩

/-- Settles O48: the entry into the fatal path, by the reason the transport reports. -/
theorem rxEndEntersTheFatalPath : Obligations.RxEndEntersTheFatalPath := by
  intro s r rest hin
  have hstep : step s = .next (rxEnd r { s with inputs := rest }) := step_of_input hin
  rw [hstep, rxEnd]
  refine ⟨fun hs => ?_, fun hs => ?_⟩
  · rw [if_pos hs, enterFatal_eq]
    cases r <;> rfl
  · rw [if_neg hs]

/-! ## TX_SEND -/

theorem txSend_of_idle (h : s.sess ≠ .isOpen ∨ s.txq = []) (o : WriteOutcome) : txSend o s = s := by
  obtain heq | ⟨t, f, rest, hs, hq, -⟩ | ⟨t, f, rest, j, hs, hq, -⟩ := txSend_cases o s
  · exact heq
  · exact (h.elim (fun hne => hne hs) fun hnil => nomatch hnil.symm.trans hq).elim
  · exact (h.elim (fun hne => hne hs) fun hnil => nomatch hnil.symm.trans hq).elim

theorem txSend_ok_of_head {t : Ticket} {f : Bytes} {q : List (Ticket × Bytes)} (hs : s.sess = .isOpen)
    (hq : s.txq = (t, f) :: q) : txSend .ok s = { s with txq := q, wireOut := s.wireOut ++ f } := by
  simp only [txSend, if_pos hs, hq]

theorem txSend_fail_of_head {t : Ticket} {f : Bytes} {q : List (Ticket × Bytes)} {j : Nat} (hs : s.sess = .isOpen)
    (hq : s.txq = (t, f) :: q) (hj : j < f.length) :
    txSend (.fail j) s = enterFatal .writeError { s with txq := q, wireOut := s.wireOut ++ f.take j } := by
  simp only [txSend, if_pos hs, hq, if_pos hj]

/-- Settles O47: the head of `TXQ` and the transport's answer decide. -/
theorem transmitWritesWholeFrames : Obligations.TransmitWritesWholeFrames := by
  intro s o rest hin
  have hstep : step s = .next (txSend o { s with inputs := rest }) := step_of_input hin
  rw [hstep]
  refine ⟨fun h => congrArg _ (txSend_of_idle (s := { s with inputs := rest }) h o), ?_, ?_⟩
  · rintro t f q hs hq rfl
    rw [txSend_ok_of_head (s := { s with inputs := rest }) hs hq]
  · rintro t f q j hs hq rfl hj
    rw [txSend_fail_of_head (s := { s with inputs := rest }) hs hq hj, enterFatal_eq]

/-! ## TIMEOUT -/

theorem timeoutStep_of_idle {c : CallerId}
    (h : s.cfg.timeoutEnabled = false ∨ ∀ op m t, s.callAt c = .session .wait op m t → s.slotAt t ≠ .waiting) :
    timeoutStep c s = s := by
  obtain heq | ⟨op, m, t, hcall, hen, hwait, -⟩ := timeoutStep_cases c s
  · exact heq
  · exact (h.elim (fun hdis => nomatch hen.symm.trans hdis) fun hno => hno op m t hcall hwait).elim

theorem timeoutStep_of_waiting {c : CallerId} {op : Call} {m : Mark} {t : Ticket} (hen : s.cfg.timeoutEnabled = true)
    (hcall : s.callAt c = .session .wait op m t) (hwait : s.slotAt t = .waiting) :
    timeoutStep c s = abandonOp m t .timeout { s with txq := s.txq.filter (fun e => e.1 != t) } := by
  simp only [timeoutStep, hcall, if_pos (And.intro hen hwait)]

/-- Settles O49: TIMEOUT abandons the allocation that the call holds. -/
theorem timeoutAbandonsTheCall : Obligations.TimeoutAbandonsTheCall := by
  intro s c rest hin
  have hstep : step s = .next (timeoutStep c { s with inputs := rest }) := step_of_input hin
  rw [hstep]
  refine ⟨fun h => congrArg _ (timeoutStep_of_idle (s := { s with inputs := rest }) h), ?_⟩
  intro op m t hen hcall hwait hm
  rw [timeoutStep_of_waiting (s := { s with inputs := rest }) hen hcall hwait, abandonOp_of_held]
  · exact ⟨_, rfl, rfl, fun m' => s.poolAt_setPool m m' none, fun k => (s.setPool m none).slotAt_setSlot t k _⟩
  · exact hm

/-! ## FINALIZE -/

theorem finalize_of_not_closing (h : ∀ r, s.sess ≠ .closing r) : finalize s = s := by
  obtain heq | ⟨r, hr, -⟩ := finalize_cases s
  · exact heq
  · exact absurd hr (h r)

theorem finalize_of_scanEnabled (h : scanEnabled s = true) : finalize s = s := by
  obtain heq | ⟨r, -, hscan, -⟩ := finalize_cases s
  · exact heq
  · cases h.symm.trans hscan

theorem isClosed_eq_true_iff {x : SessionStatus} : isClosed x = true ↔ ∃ r, x = .closed r := by
  cases x <;> simp [isClosed]

/-- The state that FINALIZE force-releases the marks of: what is left unread is reported and dropped. -/
def State.discardLeftovers (s : State) : State :=
  { s with diag := s.diag ++ leftoverEvents s, syncbuf := [], txq := [] }

theorem finalize_of_closing {r : Reason} (hr : s.sess = .closing r) (hscan : scanEnabled s = false) :
    finalize s = { forceReleaseAll (.transportClosed r) s.discardLeftovers with sess := .closed r } := by
  simp only [finalize, hr, hscan, State.discardLeftovers, Bool.false_eq_true, if_false]

theorem leftoverEvents_eq (s : State) : leftoverEvents s =
    (if 0 < s.syncbuf.length then [.noiseDiscarded s.syncbuf.length] else []) ++
      (if 0 < s.txq.length then [.txDiscarded s.txq.length] else []) := by
  simp only [leftoverEvents, List.length_pos_iff, ite_not]

/-- Settles O46: in `CLOSING` a SCAN that is enabled comes first; otherwise FORCE_RELEASE_ALL frees every mark above
0. -/
theorem finalizeEndsTheSession : Obligations.FinalizeEndsTheSession := by
  intro s rest hin
  have hstep : step s = .next (finalize { s with inputs := rest }) := step_of_input hin
  rw [hstep]
  refine ⟨fun h => congrArg _ (finalize_of_not_closing (s := { s with inputs := rest }) h), fun hwork => ?_,
    fun r hr hconsumed hframe => ?_⟩
  · by_cases hclosed : isClosed s.sess = true
    · obtain ⟨r, hr⟩ := isClosed_eq_true_iff.1 hclosed
      have hnot : ∀ r', s.sess ≠ .closing r' := fun r' hr' => nomatch hr.symm.trans hr'
      exact congrArg _ (finalize_of_not_closing (s := { s with inputs := rest }) hnot)
    · have hscan : scanEnabled { s with inputs := rest } = true :=
        scanEnabled_eq_true_iff.2 ⟨Bool.eq_false_iff.2 hclosed, hwork⟩
      rw [finalize_of_scanEnabled hscan]
  · have hscan : scanEnabled { s with inputs := rest } = false := by
      rw [Bool.eq_false_iff, Ne, scanEnabled_eq_true_iff]
      exact fun ⟨_, hwork⟩ => hwork.elim (fun hpos => hpos.ne' hconsumed) fun hne => hne hframe
    rw [finalize_of_closing (s := { s with inputs := rest }) hr hscan]
    obtain ⟨hrest, hpool, hheld, hother, -⟩ :=
      forceReleaseAll_spec (.transportClosed r) (State.discardLeftovers { s with inputs := rest })
    refine ⟨_, rfl, ?_, fun m hm => (hpool m).trans (if_neg hm), (hpool 0#8).trans (if_pos rfl), hheld, fun t ht => ?_⟩
    · rw [hrest, State.discardLeftovers, leftoverEvents_eq, List.append_assoc]
    · exact hother t fun ⟨m, hm, h⟩ => ht m hm h

/-! ## The response arms of the router -/

theorem releaseOp_of_held {m : Mark} {t : Ticket} (h : s.poolAt m = some t) (resp : Bytes) :
    releaseOp m resp s = (s.setPool m none).setSlot t (.done resp) := by
  rw [releaseOp, h]

theorem releaseOp_of_free {m : Mark} (h : s.poolAt m = none) (resp : Bytes) :
    releaseOp m resp s = s.emit (.unknownMark m) := by
  rw [releaseOp, h]

/-- A response that is an instruction is well formed, so its raw payload is released (R252 to R254). -/
theorem exec_eq_releaseOp {i : Instr} {m : Mark} (h : (∃ mn st d, i = .atCommandResponseFrame m mn st d) ∨
      (∃ d16 retry del disc, i = .txStatusFrame m d16 retry del disc) ∨
      (∃ a a16 mn st d, i = .remoteCommandResponseFrame m a a16 mn st d)) (s : State) :
    exec i s = .next (releaseOp m (encode i).2 s) := by
  obtain ⟨mn, st, d, rfl⟩ | ⟨d16, retry, del, disc, rfl⟩ | ⟨a, a16, mn, st, d, rfl⟩ := h
  · show execAtCommandResponseFrame m mn st d s = _
    rw [execAtCommandResponseFrame, decodeAtRespOp_atRespPayload]
    rfl
  · show execTxStatusFrame m d16 retry del disc s = _
    rw [execTxStatusFrame, decodeTxStatusOp_txStatusPayload]
    rfl
  · show execRemoteCommandResponseFrame m a a16 mn st d s = _
    rw [execRemoteCommandResponseFrame, decodeRemoteAtRespOp_remoteRespPayload]
    rfl

theorem dispatchPayload_of_atResp {p : Bytes} (h : p.head? = some 0x88#8) (s : State) :
    dispatchPayload p s = routeResp (decodeAtRespOp p) p s := by
  obtain ⟨r, rfl⟩ := List.head?_eq_some_iff.1 h
  rfl

theorem dispatchPayload_of_txStatus {p : Bytes} (h : p.head? = some 0x8B#8) (s : State) :
    dispatchPayload p s = routeResp (decodeTxStatusOp p) p s := by
  obtain ⟨r, rfl⟩ := List.head?_eq_some_iff.1 h
  rfl

theorem dispatchPayload_of_remoteResp {p : Bytes} (h : p.head? = some 0x97#8) (s : State) :
    dispatchPayload p s = routeResp (decodeRemoteAtRespOp p) p s := by
  obtain ⟨r, rfl⟩ := List.head?_eq_some_iff.1 h
  rfl

/-- A payload that its decoder refuses is dropped with the decoder's error (R257). -/
theorem routeResp_of_error {α : Type} {p : Bytes} {type : Byte} (h : p.head? = some type) (e : Err) (s : State) :
    routeResp (.error e : Except Err α) p s = { s with diag := s.diag ++ [.decodeFailed type e] } := by
  obtain ⟨r, rfl⟩ := List.head?_eq_some_iff.1 h
  rfl

/-- Settles O34: a response is released by its mark, and a payload of the wrong length by none. -/
theorem responseFramesReleaseTheirMark : Obligations.ResponseFramesReleaseTheirMark := by
  refine ⟨fun i m hi s => ?_, fun p s h hlen => ?_, fun p s h hlen => ?_, fun p s h hlen => ?_⟩
  · rw [exec_eq_releaseOp hi]
    refine ⟨fun t ht => ?_, fun hfree => ?_⟩
    · rw [releaseOp_of_held ht]
      exact ⟨_, rfl, rfl, fun m' => s.poolAt_setPool m m' none, fun k => (s.setPool m none).slotAt_setSlot t k _⟩
    · rw [releaseOp_of_free hfree, State.emit]
  · rw [dispatchPayload_of_atResp h, decodeAtRespOp, if_pos hlen, routeResp_of_error h]
  · rw [dispatchPayload_of_txStatus h, decodeTxStatusOp_of_type h, if_pos hlen, routeResp_of_error h]
  · rw [dispatchPayload_of_remoteResp h, decodeRemoteAtRespOp_of_type h, if_pos hlen, routeResp_of_error h]

end Sys2Proof.Machine
end

section
/-! The records of the block over a step (10_state.md R21 to R23, R28, R30, R33; 20_memory.md R68, R71; 60_exceptions.md
R317). First what the shared operations do to the records, then what an instruction and a step can do to them, then the
four statements. -/

namespace Sys2Proof.Machine

variable {s u v : State} {n : Nat}

/-! ## Operations that end no session, write nothing and take nothing -/

/-- `SESS`, the close control, the configuration and `WIRE_OUT` are as before, `RDBUF`, `DIAG` and the completions have
only been appended to, and `n` tickets have been drawn. -/
structure Steady (n : Nat) (s u : State) : Prop where
  sess : u.sess = s.sess
  closeCtl : u.closeCtl = s.closeCtl
  cfg : u.cfg = s.cfg
  wireOut : u.wireOut = s.wireOut
  rdbuf : s.rdbuf <+: u.rdbuf
  diag : s.diag <+: u.diag
  completions : s.completions <+: u.completions
  nextTicket : u.nextTicket = s.nextTicket + n

namespace Steady

/-- An update of other fields. -/
theorem of_eq (hsess : u.sess = s.sess) (hctl : u.closeCtl = s.closeCtl) (hcfg : u.cfg = s.cfg)
    (hwire : u.wireOut = s.wireOut) (hrdbuf : u.rdbuf = s.rdbuf) (hdiag : u.diag = s.diag)
    (hcompletions : u.completions = s.completions) (hnext : u.nextTicket = s.nextTicket) : Steady 0 s u :=
  ⟨hsess, hctl, hcfg, hwire, hrdbuf ▸ List.prefix_rfl, hdiag ▸ List.prefix_rfl, hcompletions ▸ List.prefix_rfl, hnext⟩

theorem refl (s : State) : Steady 0 s s := of_eq rfl rfl rfl rfl rfl rfl rfl rfl

theorem trans (h : Steady n s v) (h' : Steady 0 v u) : Steady n s u where
  sess := h'.sess.trans h.sess
  closeCtl := h'.closeCtl.trans h.closeCtl
  cfg := h'.cfg.trans h.cfg
  wireOut := h'.wireOut.trans h.wireOut
  rdbuf := h.rdbuf.trans h'.rdbuf
  diag := h.diag.trans h'.diag
  completions := h.completions.trans h'.completions
  nextTicket := h'.nextTicket.trans h.nextTicket

/-- The caller that acts is no record. -/
theorem of_caller {c : CallerId} (h : Steady n { s with reqCaller := c } u) : Steady n s u :=
  ⟨h.sess, h.closeCtl, h.cfg, h.wireOut, h.rdbuf, h.diag, h.completions, h.nextTicket⟩

theorem setCall (h : Steady n s u) (c : CallerId) (x : CallState) : Steady n s (u.setCall c x) :=
  h.trans (of_eq rfl rfl rfl rfl rfl rfl rfl rfl)

theorem setFreeCount (h : Steady n s u) (k : Nat) : Steady n s { u with freeCount := k } :=
  h.trans (of_eq rfl rfl rfl rfl rfl rfl rfl rfl)

theorem complete (h : Steady n s u) (c : CallerId) (x : Completion) : Steady n s (u.complete c x) :=
  h.trans ⟨rfl, rfl, rfl, rfl, List.prefix_rfl, List.prefix_rfl, List.prefix_append _ _, rfl⟩

theorem emit (s : State) (e : Event) : Steady 0 s (s.emit e) :=
  ⟨rfl, rfl, rfl, rfl, List.prefix_rfl, List.prefix_append _ _, List.prefix_rfl, rfl⟩

theorem appendRdbuf (s : State) (b : Bytes) : Steady 0 s { s with rdbuf := s.rdbuf ++ b } :=
  ⟨rfl, rfl, rfl, rfl, List.prefix_append _ _, List.prefix_rfl, List.prefix_rfl, rfl⟩

/-- ACQUIRE draws the one ticket that a step can draw (R30). -/
theorem reserve (s : State) (m : Mark) : Steady 1 s (s.reserve m) :=
  ⟨rfl, rfl, rfl, rfl, List.prefix_rfl, List.prefix_rfl, List.prefix_rfl, rfl⟩

theorem finishWith {α : Type} (h : Steady n s u) (mk : α → Result) (r : Except Err α) :
    Steady n s (u.finishWith mk r) := by
  obtain ⟨x, hx⟩ := u.finishWith_eq_complete mk r
  exact hx ▸ h.complete _ x

theorem releaseOp (m : Mark) (resp : Bytes) (s : State) : Steady 0 s (releaseOp m resp s) := by
  rcases releaseOp_cases m resp s with ⟨_, _, h⟩ | ⟨t, _, _, h⟩ <;> rw [h]
  · exact emit s _
  · exact of_eq rfl rfl rfl rfl rfl rfl rfl rfl

theorem abandonOp (m : Mark) (t : Ticket) (e : Err) (s : State) : Steady 0 s (abandonOp m t e s) := by
  rcases abandonOp_cases m t e s with ⟨_, h⟩ | ⟨_, h⟩ <;> rw [h]
  · exact of_eq rfl rfl rfl rfl rfl rfl rfl rfl
  · exact refl s

theorem awaitOp {t : Ticket} {s' : State} {x : Except Err Bytes} (h : awaitOp t s = some (s', x)) : Steady 0 s s' := by
  rcases awaitOp_cases t s with ⟨_, h'⟩ | ⟨_, h'⟩ | ⟨b, _, h'⟩ | ⟨e, _, h'⟩ <;> rw [h'] at h <;> cases h
  · exact refl s
  · exact of_eq rfl rfl rfl rfl rfl rfl rfl rfl
  · exact of_eq rfl rfl rfl rfl rfl rfl rfl rfl

theorem routeRx (p : Bytes) (s : State) : Steady 0 s (routeRx p s) := by
  rcases routeRx_cases p s with ⟨e, _, h⟩ | ⟨r, _, _, h⟩ | ⟨r, n, _, _, _, h⟩ <;> rw [h]
  · exact emit s _
  · exact appendRdbuf s _
  · exact emit s _

theorem routeResp {α : Type} (d : Except Err α) (p : Bytes) (s : State) : Steady 0 s (routeResp d p s) := by
  rcases routeResp_cases d p s with ⟨e, _, h⟩ | ⟨r, _, h⟩ <;> rw [h]
  · exact emit s _
  · exact releaseOp _ p s

theorem dispatchPayload (p : Bytes) (s : State) : Steady 0 s (dispatchPayload p s) := by
  unfold Machine.dispatchPayload
  split
  · exact emit s _
  · split_ifs
    · exact routeRx _ s
    · exact routeResp _ _ s
    · exact routeResp _ _ s
    · exact routeResp _ _ s
    · exact emit s _

theorem startCall (op : Call) (s : State) : ∃ n ≤ 1, Steady n s (startCall op s) := by
  rcases startCall_cases op s with ⟨e, h⟩ | ⟨m, _, _, _, h⟩ <;> rw [h]
  · exact ⟨0, Nat.zero_le 1, (refl s).complete _ _⟩
  · exact ⟨1, le_rfl, (reserve s m).setCall _ _⟩

theorem sendPayload (p : Bytes) (s : State) : Steady 0 s (sendPayload p s) := by
  rcases sendPayload_cases p s with h | ⟨op, m, t, _, _, h⟩ <;> rw [h]
  · exact refl s
  · rcases sendPhase_cases p op m t s with ⟨f, _, _, h⟩ | ⟨e, _, _, h⟩ | ⟨_, h⟩ <;> rw [h]
    · exact of_eq rfl rfl rfl rfl rfl rfl rfl rfl
    · exact ((refl s).setCall _ _).complete _ _
    · exact (refl s).setCall _ _

theorem waitPhase (c : CallerId) (op : Call) (m : Mark) (t : Ticket) (s : State) :
    Steady 0 s (waitPhase c op m t s) := by
  rcases waitPhase_cases c op m t s with ⟨_, h⟩ | ⟨s', x, ha, h⟩ <;> rw [h]
  · exact refl s
  · exact (((awaitOp ha).trans (abandonOp m t .abandoned s')).setCall c .idle).complete _ _

theorem awaitPhase (c : CallerId) (t : Ticket) (s : State) : Steady 0 s (awaitPhase c t s) := by
  rcases awaitPhase_cases c t s with ⟨_, h⟩ | ⟨s', x, y, ha, h⟩ <;> rw [h]
  · exact refl s
  · exact ((awaitOp ha).setCall c .idle).complete _ _

theorem ingest (ch : Bytes) (s : State) : Steady 0 s (ingest ch s) := by
  unfold Machine.ingest
  split <;> exact of_eq rfl rfl rfl rfl rfl rfl rfl rfl

theorem timeoutStep (c : CallerId) (s : State) : Steady 0 s (timeoutStep c s) := by
  rcases timeoutStep_cases c s with h | ⟨op, m, t, _, _, _, h⟩ <;> rw [h]
  · exact refl s
  · have hdropped : Steady 0 s { s with txq := s.txq.filter (fun e => e.1 != t) } :=
      of_eq rfl rfl rfl rfl rfl rfl rfl rfl
    exact hdropped.trans (abandonOp m t .timeout _)

theorem scanConsume (s : State) : Steady 0 s (scanConsume s) :=
  ⟨rfl, rfl, rfl, rfl, List.prefix_rfl, List.prefix_append _ _, List.prefix_rfl, rfl⟩

theorem forceReleaseAll (e : Err) (s : State) : Steady 0 s (forceReleaseAll e s) := by
  obtain ⟨h, -⟩ := forceReleaseAll_spec e s
  rw [h]
  exact of_eq rfl rfl rfl rfl rfl rfl rfl rfl

end Steady

/-! ## Taking from the read buffer -/

/-- The bytes at the front of `RDBUF` are taken and are the one completion (R71, R285). -/
structure Takes (s u : State) : Prop where
  sess : u.sess = s.sess
  closeCtl : u.closeCtl = s.closeCtl
  cfg : u.cfg = s.cfg
  wireOut : u.wireOut = s.wireOut
  diag : u.diag = s.diag
  nextTicket : u.nextTicket = s.nextTicket
  taken : ∃ c n, u.rdbuf = s.rdbuf.drop n ∧ u.completions = s.completions ++ [(c, .ok (.bytes (s.rdbuf.take n)))]

theorem Takes.of_caller {c : CallerId} (h : Takes { s with reqCaller := c } u) : Takes s u :=
  ⟨h.sess, h.closeCtl, h.cfg, h.wireOut, h.diag, h.nextTicket, h.taken⟩

theorem takePhase_records (c : CallerId) (nmax : Nat) (s : State) :
    Steady 0 s (takePhase c nmax s) ∨ Takes s (takePhase c nmax s) := by
  unfold takePhase
  rcases takeOp_cases nmax s with ⟨_, _, h⟩ | ⟨r, _, _, h⟩ | ⟨_, h⟩ <;> rw [h]
  · exact .inl (.refl s)
  · exact .inl (((Steady.refl s).setCall c .idle).complete _ _)
  · exact .inr ⟨rfl, rfl, rfl, rfl, rfl, rfl, c, nmax, rfl, rfl⟩

theorem execRead_records {nmax : Nat} (h : execRead nmax s = .next u) : Steady 0 s u ∨ Takes s u := by
  unfold execRead at h
  split at h
  · cases h
    exact .inl ((Steady.refl s).complete _ _)
  · rcases takeOp_cases nmax s with ⟨_, _, h'⟩ | ⟨r, _, _, h'⟩ | ⟨_, h'⟩ <;> rw [h'] at h <;> cases h
    · exact .inl ((Steady.refl s).setCall _ _)
    · exact .inl ((Steady.refl s).finishWith _ _)
    · exact .inr ⟨rfl, rfl, rfl, rfl, rfl, rfl, s.reqCaller, nmax, rfl, rfl⟩

/-! ## What an instruction does to the records -/

theorem execAcquire_records (h : execAcquire s = .next u) : ∃ n ≤ 1, Steady n s u := by
  unfold execAcquire at h
  rcases acquireOp_cases s with ⟨r, _, h'⟩ | ⟨_, _, h'⟩ | ⟨m, _, _, h'⟩ <;> rw [h'] at h <;> cases h
  · exact ⟨0, Nat.zero_le 1, (Steady.refl s).complete _ _⟩
  · exact ⟨0, Nat.zero_le 1, (Steady.refl s).complete _ _⟩
  · exact ⟨1, le_rfl, (Steady.reserve s m).complete _ _⟩

theorem execRelease_records {m : Mark} {resp : Bytes} (h : execRelease m resp s = .next u) : Steady 0 s u := by
  unfold execRelease at h
  split at h <;> cases h <;> exact (Steady.releaseOp m resp s).complete _ _

theorem execAbandon_records {m : Mark} {t : Ticket} {code : Byte} (h : execAbandon m t code s = .next u) :
    Steady 0 s u := by
  unfold execAbandon at h
  split at h
  · cases h
    exact (Steady.refl s).complete _ _
  · next e _ =>
    have habandon := Steady.abandonOp m t e s
    split at h <;> cases h
    · exact (habandon.setFreeCount _).complete _ _
    · exact habandon.complete _ _

theorem execAwait_records {t : Ticket} (h : execAwait t s = .next u) : Steady 0 s u := by
  unfold execAwait at h
  split at h
  · cases h
    exact (Steady.refl s).setCall _ _
  · next s' x ha =>
    cases h
    exact (Steady.awaitOp ha).finishWith _ _

/-- A frame of a produced type is sent or reported. -/
theorem producedFrame_records (meaning : Side → Host.Outcome State Fault Refusal) (side : Side) {p : Bytes}
    {t : Option Byte} (hsent : meaning .sent = .next (sendPayload p s))
    (hreceived : meaning .received = .next (routeUnknown t s)) (h : meaning side = .next u) : Steady 0 s u := by
  cases side with
  | sent => cases hsent.symm.trans h; exact .sendPayload p s
  | received => cases hreceived.symm.trans h; exact .emit s _

/-- An instruction other than CLOSE is steady, with at most one ticket drawn, or takes from the read buffer. -/
theorem exec_records {i : Instr} (hi : i ≠ .close) (h : exec i s = .next u) :
    (∃ n ≤ 1, Steady n s u) ∨ Takes s u := by
  have hquiet : Steady 0 s u → (∃ n ≤ 1, Steady n s u) ∨ Takes s u := fun h => .inl ⟨0, Nat.zero_le 1, h⟩
  cases i with
  | close => exact absurd rfl hi
  | read nmax => exact (execRead_records h).elim hquiet .inr
  | acquire => exact .inl (execAcquire_records h)
  | write data => cases h; exact .inl (Steady.startCall _ s)
  | atCommand mn param queued => cases h; exact .inl (Steady.startCall _ s)
  | remoteAtCommand dest options mn param => cases h; exact .inl (Steady.startCall _ s)
  | release m resp => exact hquiet (execRelease_records h)
  | abandon m t code => exact hquiet (execAbandon_records h)
  | awaitSlot t => exact hquiet (execAwait_records h)
  | atCommandFrame side m mn d =>
    exact hquiet (producedFrame_records (execAtCommandFrame · m mn d s) side rfl rfl h)
  | queuedAtCommandFrame side m mn d =>
    exact hquiet (producedFrame_records (execQueuedAtCommandFrame · m mn d s) side rfl rfl h)
  | txRequestFrame side m a a16 r o d =>
    exact hquiet (producedFrame_records (execTxRequestFrame · m a a16 r o d s) side rfl rfl h)
  | remoteAtCommandFrame side m a a16 o mn d =>
    exact hquiet (producedFrame_records (execRemoteAtCommandFrame · m a a16 o mn d s) side rfl rfl h)
  | atCommandResponseFrame _ _ _ _ => cases h; exact hquiet (.routeResp _ _ s)
  | txStatusFrame _ _ _ _ _ => cases h; exact hquiet (.routeResp _ _ s)
  | rxIndicatorFrame _ _ _ _ => cases h; exact hquiet (.routeRx _ s)
  | remoteCommandResponseFrame _ _ _ _ _ _ => cases h; exact hquiet (.routeResp _ _ s)
  | syncStep _ _ => cases h; exact hquiet ((Steady.refl s).complete _ _)
  | encodeAt _ _ _ _ => cases h; exact hquiet ((Steady.refl s).complete _ _)
  | encodeRemoteAt _ _ _ _ _ => cases h; exact hquiet ((Steady.refl s).complete _ _)
  | encodeTx _ _ _ _ _ => cases h; exact hquiet ((Steady.refl s).complete _ _)
  | encodeFrame _ => cases h; exact hquiet ((Steady.refl s).finishWith _ _)
  | decodeFrame _ => cases h; exact hquiet ((Steady.refl s).finishWith _ _)
  | decodeAtResp _ => cases h; exact hquiet ((Steady.refl s).finishWith _ _)
  | decodeRemoteAtResp _ => cases h; exact hquiet ((Steady.refl s).finishWith _ _)
  | decodeRx _ => cases h; exact hquiet ((Steady.refl s).finishWith _ _)
  | decodeTxStatus _ => cases h; exact hquiet ((Steady.refl s).finishWith _ _)

/-! ## What a step does to the records -/

/-- The payloads that a SEND phase hands to the framer are frames, and CLOSE is none (R82). -/
theorem ne_close_of_decode_sent {p : Bytes} {i : Instr} (h : decode .sent p = .ok i) : i ≠ .close := by
  rintro rfl
  cases p with
  | nil => cases h
  | cons type r =>
    have hproduced : decodeProduced .sent (byteAt (type :: r) 0) (type :: r) = .ok .close := h
    have hport : Port.hostRequest = .sent := congrArg Prod.fst (encode_of_decodeProduced hproduced)
    cases hport

/-- The inputs besides TX_SEND and reset whose step can write `SESS` (R23). -/
def endsSession (x : Input) : Prop :=
  match x with
  | .rxEnd _ => True
  | .finalize => True
  | .request _ bytes => decode .hostRequest bytes = .ok .close
  | _ => False

/-- The ways in which a step other than reset that takes the input `x` can change the records (`stepRecords`). -/
inductive StepRecords (s u : State) : Input → Prop
  /-- Nothing is written or taken, and at most one ticket drawn. -/
  | steady {x : Input} {n : Nat} (hn : n ≤ 1) (h : Steady n s u) : StepRecords s u x
  /-- Bytes are taken from `RDBUF`. -/
  | takes {x : Input} (h : Takes s u) : StepRecords s u x
  /-- `SESS` moves. -/
  | ends {x : Input} {status : SessionStatus} {ctl : Bool} (hx : endsSession x) (hmove : sessMoves s.sess status)
      (h : Steady 0 { s with sess := status, closeCtl := ctl } u) : StepRecords s u x
  /-- The head of `TXQ` goes out whole. -/
  | writes {t : Ticket} {f : Bytes} {q : List (Ticket × Bytes)} (hq : s.txq = (t, f) :: q) (hq' : u.txq = q)
      (h : Steady 0 { s with wireOut := s.wireOut ++ f } u) : StepRecords s u (.txSend .ok)
  /-- A part of the head of `TXQ` goes out and the session ends. -/
  | fails {t : Ticket} {f : Bytes} {q : List (Ticket × Bytes)} {j : Nat} (hopen : s.sess = .isOpen)
      (hq : s.txq = (t, f) :: q) (hq' : u.txq = q)
      (h : Steady 0 { s with wireOut := s.wireOut ++ f.take j, sess := .closing .writeError, closeCtl := true } u) :
      StepRecords s u (.txSend (.fail j))

namespace StepRecords

theorem quiet {x : Input} (h : Steady 0 s u) : StepRecords s u x := .steady (Nat.zero_le 1) h

theorem of_exec {x : Input} {c : CallerId} {i : Instr} (hi : i ≠ .close)
    (h : exec i { s with reqCaller := c } = .next u) : StepRecords s u x := by
  obtain ⟨n, hn, hsteady⟩ | htakes := exec_records hi h
  · exact .steady hn hsteady.of_caller
  · exact .takes htakes.of_caller

/-- CLOSE ends an open session and is an error of any other (R292). -/
theorem of_close {c : CallerId} {bytes : Bytes} (hdecode : decode .hostRequest bytes = .ok .close)
    (h : exec .close { s with reqCaller := c } = .next u) : StepRecords s u (.request c bytes) := by
  cases hs : s.sess.ended with
  | none =>
    have hopen : s.sess = .isOpen := SessionStatus.ended_eq_none_iff.1 hs
    cases (exec_close_of_open (s := { s with reqCaller := c }) hopen).symm.trans h
    refine .ends (status := .closing .localClose) (ctl := true) hdecode (by rw [hopen]; exact ⟨_, rfl⟩) ?_
    exact ⟨rfl, rfl, rfl, rfl, List.prefix_rfl, List.prefix_append _ _, List.prefix_append _ _, rfl⟩
  | some r =>
    cases (exec_close_of_ended (s := { s with reqCaller := c }) hs).symm.trans h
    exact .quiet ((Steady.refl { s with reqCaller := c }).complete c _).of_caller

theorem request {c : CallerId} {bytes : Bytes} (h : (fetchRequest c bytes s).outcome = .next u) :
    StepRecords s u (.request c bytes) := by
  unfold fetchRequest at h
  split at h
  · split at h
    · next i hi =>
      by_cases hclose : i = .close
      · subst hclose
        exact of_close hi h
      · exact of_exec hclose h
    · cases h
      exact .quiet ((Steady.refl { s with reqCaller := c }).complete c _).of_caller
  · cases h
    exact .quiet (.refl s)

theorem phase {c : CallerId} (h : (fetchPhase c s).outcome = .next u) : StepRecords s u (.phase c) := by
  unfold fetchPhase at h
  split at h
  · cases h
    exact .quiet (.refl s)
  · unfold fetchSend at h
    split at h
    · next i hi => exact of_exec (ne_close_of_decode_sent hi) h
    · cases h
      exact .quiet (.refl s)
  · cases h
    exact .quiet (.waitPhase ..)
  · cases h
    exact .quiet (.awaitPhase ..)
  · cases h
    exact (takePhase_records c _ s).elim .quiet .takes

theorem scan (h : (fetchScan s).outcome = .next u) : StepRecords s u .scan := by
  unfold fetchScan at h
  split at h
  · split at h
    · cases h
      exact .quiet (.scanConsume s)
    · split at h
      · cases h
        exact .quiet ((Steady.scanConsume s).trans (.emit _ _))
      · next p _ =>
        rw [fetchPayload_outcome] at h
        cases h
        exact .quiet ((Steady.scanConsume s).trans (.dispatchPayload p _))
  · cases h
    exact .quiet (.refl s)

/-- FINALIZE closes the session with the reason that it has (R317). -/
theorem finalize (s : State) : StepRecords s (finalize s) .finalize := by
  rcases finalize_cases s with h | ⟨r, hr, _, h⟩ <;> rw [h]
  · exact .quiet (.refl s)
  · refine .ends (status := .closed r) (ctl := s.closeCtl) trivial (by rw [hr]; rfl) ?_
    have hforce := Steady.forceReleaseAll (.transportClosed r)
      { s with diag := s.diag ++ leftoverEvents s, syncbuf := [], txq := [] }
    exact ⟨rfl, hforce.closeCtl, hforce.cfg, hforce.wireOut, hforce.rdbuf,
      (List.prefix_append _ _).trans hforce.diag, hforce.completions, hforce.nextTicket⟩

theorem rxEnd (r : RxEndReason) (s : State) : StepRecords s (rxEnd r s) (.rxEnd r) := by
  unfold Machine.rxEnd
  split
  · next hopen =>
    refine .ends (status := .closing r.reason) (ctl := true) trivial (by rw [hopen]; exact ⟨_, rfl⟩) ?_
    exact ⟨rfl, rfl, rfl, rfl, List.prefix_rfl, List.prefix_append _ _, List.prefix_rfl, rfl⟩
  · exact .quiet (.refl s)

theorem txSend (o : WriteOutcome) (s : State) : StepRecords s (txSend o s) (.txSend o) := by
  rcases txSend_cases o s with h | ⟨t, f, rest, _, hq, rfl, h⟩ | ⟨t, f, rest, j, hopen, hq, rfl, _, h⟩ <;> rw [h]
  · exact .quiet (.refl s)
  · exact .writes hq rfl (.of_eq rfl rfl rfl rfl rfl rfl rfl rfl)
  · refine .fails hopen hq rfl ?_
    exact ⟨rfl, rfl, rfl, rfl, List.prefix_rfl, List.prefix_append _ _, List.prefix_rfl, rfl⟩

end StepRecords

/-- Everything that a step other than reset can do to the records. -/
theorem stepRecords {x : Input} {rest : List Input} (hin : s.inputs = x :: rest) (hreset : ∀ cfg, x ≠ .reset cfg)
    (hstep : step s = .next u) : StepRecords { s with inputs := rest } u x := by
  rw [step_of_input hin] at hstep
  cases x with
  | reset cfg => exact absurd rfl (hreset cfg)
  | request c bytes => exact .request hstep
  | phase c => exact .phase hstep
  | chunk ch => cases hstep; exact .quiet (.ingest ch _)
  | rxEnd r => cases hstep; exact .rxEnd r _
  | scan => exact .scan hstep
  | finalize => cases hstep; exact .finalize _
  | txSend o => cases hstep; exact .txSend o _
  | timeout c => cases hstep; exact .quiet (.timeoutStep c _)

/-- A step other than reset, with or without an input. -/
theorem stepRecords_of_step (hreset : takesReset s = false) (hstep : step s = .next u) :
    u = s ∨ ∃ x rest, s.inputs = x :: rest ∧ StepRecords { s with inputs := rest } u x := by
  cases hin : s.inputs with
  | nil =>
    rw [step_of_no_inputs hin] at hstep
    cases hstep
    exact .inl rfl
  | cons x rest => exact .inr ⟨x, rest, rfl, stepRecords hin (ne_reset_of_takesReset hin hreset) hstep⟩

/-! ## The statements -/

/-- Settles O56: of the ways to change the records, two move `SESS`, each forward. -/
theorem sessionNeverReopens : Obligations.SessionNeverReopens := by
  intro s u hreset hstep
  obtain rfl | ⟨x, rest, -, h⟩ := stepRecords_of_step hreset hstep
  · exact .inl rfl
  · cases h with
    | steady _ h => exact .inl h.sess
    | takes h => exact .inl h.sess
    | ends _ hmove h => exact .inr (by rw [h.sess]; exact hmove)
    | writes _ _ h => exact .inl h.sess
    | fails hopen _ _ h =>
      have hopen' : s.sess = .isOpen := hopen
      exact .inr (by rw [h.sess, hopen']; exact ⟨_, rfl⟩)

/-- Settles O57: an instruction other than CLOSE is steady or takes, and a step that moves `SESS` names its input. -/
theorem onlyTheNamedStepsWriteTheStatus : Obligations.OnlyTheNamedStepsWriteTheStatus := by
  refine ⟨fun i s u hi h => ?_, fun s u hstep hmoved => ?_⟩
  · obtain ⟨n, _, h⟩ | h := exec_records hi h
    · exact ⟨h.sess, h.closeCtl⟩
    · exact ⟨h.sess, h.closeCtl⟩
  · cases hin : s.inputs with
    | nil =>
      rw [step_of_no_inputs hin] at hstep
      cases hstep
      exact absurd rfl hmoved
    | cons x rest =>
      refine ⟨rest, ?_⟩
      by_cases hreset : ∃ cfg, x = .reset cfg
      · obtain ⟨cfg, rfl⟩ := hreset
        exact .inr (.inr (.inr (.inl ⟨cfg, rfl⟩)))
      · cases stepRecords hin (fun cfg hx => hreset ⟨cfg, hx⟩) hstep with
        | steady _ h => exact absurd h.sess hmoved
        | takes h => exact absurd h.sess hmoved
        | ends hx _ _ =>
          cases x with
          | rxEnd r => exact .inr (.inl ⟨r, rfl⟩)
          | finalize => exact .inr (.inr (.inl rfl))
          | request c bytes => exact .inr (.inr (.inr (.inr ⟨c, bytes, rfl, hx⟩)))
          | _ => exact hx.elim
        | writes _ _ h => exact absurd h.sess hmoved
        | fails => exact .inl ⟨_, rfl⟩

theorem exists_append_of_isPrefix {α : Type} {l l' : List α} (h : l <+: l') : ∃ d, l' = l ++ d := by
  obtain ⟨d, hd⟩ := h
  exact ⟨d, hd.symm⟩

/-- Settles O58: each way to change the records appends to them, and only TX_SEND appends to `WIRE_OUT`. -/
theorem recordsOnlyGrow : Obligations.RecordsOnlyGrow := by
  intro s u hreset hstep
  obtain rfl | ⟨x, rest, -, h⟩ := stepRecords_of_step hreset hstep
  · exact ⟨rfl, ⟨[], by simp⟩, ⟨[], by simp⟩, .inl rfl, .inl rfl⟩
  · cases h with
    | @steady _ n hn h =>
      have hnext : u.nextTicket = s.nextTicket + n := h.nextTicket
      have hone : u.nextTicket = s.nextTicket ∨ u.nextTicket = s.nextTicket + 1 := by
        obtain rfl | rfl := Nat.le_one_iff_eq_zero_or_eq_one.1 hn
        · exact .inl hnext
        · exact .inr hnext
      exact ⟨h.cfg, exists_append_of_isPrefix h.diag, exists_append_of_isPrefix h.completions, hone, .inl h.wireOut⟩
    | takes h =>
      obtain ⟨c, n, -, hcompletions⟩ := h.taken
      exact ⟨h.cfg, ⟨[], by rw [h.diag, List.append_nil]⟩, ⟨_, hcompletions⟩, .inl h.nextTicket, .inl h.wireOut⟩
    | ends _ _ h =>
      exact ⟨h.cfg, exists_append_of_isPrefix h.diag, exists_append_of_isPrefix h.completions, .inl h.nextTicket,
        .inl h.wireOut⟩
    | @writes t f q hq hq' h =>
      exact ⟨h.cfg, exists_append_of_isPrefix h.diag, exists_append_of_isPrefix h.completions, .inl h.nextTicket,
        .inr ⟨t, f, q, hq, hq', .inl h.wireOut⟩⟩
    | @fails t f q j _ hq hq' h =>
      exact ⟨h.cfg, exists_append_of_isPrefix h.diag, exists_append_of_isPrefix h.completions, .inl h.nextTicket,
        .inr ⟨t, f, q, hq, hq', .inr ⟨h.sess, j, h.wireOut⟩⟩⟩

/-- Settles O59: only TAKE takes from `RDBUF`, and all else appends to it, if anything. -/
theorem readBufferIsAStream : Obligations.ReadBufferIsAStream := by
  intro s u hreset hstep
  obtain rfl | ⟨x, rest, -, h⟩ := stepRecords_of_step hreset hstep
  · exact .inl ⟨[], by simp⟩
  · cases h with
    | steady _ h => exact .inl (exists_append_of_isPrefix h.rdbuf)
    | takes h => exact .inr h.taken
    | ends _ _ h => exact .inl (exists_append_of_isPrefix h.rdbuf)
    | writes _ _ h => exact .inl (exists_append_of_isPrefix h.rdbuf)
    | fails _ _ _ h => exact .inl (exists_append_of_isPrefix h.rdbuf)

end Sys2Proof.Machine
end
